-- ==== Sys2Proof/Word.lean ====
section
/-! DEFINITION. The widths of the CORE's words (10_state.md R30). -/

namespace Sys2Proof

/-- One byte: a command word (R90), a device register address (R60), a byte on the bus. -/
abbrev Byte := BitVec 8

/-- One word of the calibration store, and the raw temperature latch (R31, R38). -/
abbrev Word16 := BitVec 16

/-- The raw pressure latch (R38). -/
abbrev Word24 := BitVec 24

/-- One datapath value: 64 bits, read as two's complement (R10). -/
abbrev Word64 := BitVec 64

end Sys2Proof
end

