-- ==== Sys2Proof/Config.lean ====
section
/-! DEFINITION. What an instance of the CORE is built with (00_scope.md R6), and the free values of the spec. -/

namespace Sys2Proof

/-- The parameters a model takes as arguments, constant for the life of an instance (R6, R61). -/
structure Params where
  /-- `DEV_ADDR`, the sensor's 7-bit bus address. -/
  devAddr : BitVec 7
  /-- `OSS_INIT`, the oversampling exponent at construction. -/
  ossInit : BitVec 2
  /-- `CAL_SENTINEL_CHECK`: whether L2 checks the coefficients (R111). -/
  calSentinelCheck : Bool
  deriving DecidableEq, Repr, Inhabited

/-- One answer of the bus transport (20_memory.md R66, R67). A write looks at `busError` only. -/
structure BusAnswer where
  /-- The transport returned `BusError`, timeouts included. -/
  busError : Bool
  /-- The `bytes_read` the transport returned. -/
  bytesRead : Nat
  /-- The bytes received in transfer order, or, after a failed read, what BUF then holds. -/
  bytes : Vector Byte 22
  deriving DecidableEq, Repr, Inhabited

namespace Config

/-- The defaults of R6. -/
def defaultParams : Params where
  devAddr := 0x77
  ossInit := 0
  calSentinelCheck := false

/-- FREE VALUE (R68, notes/assumptions/2.md): the transport's answer to a transaction whose answer is not listed in
State. It has no body: nothing constrains it. -/
opaque busAnswer : Nat → BusAnswer

/-! FREE VALUES (R46, R47, notes/assumptions/1.md): what a register that nothing has written since reset reads as. The
spec gives none ("no value") and says "never a zero". They have no body: nothing constrains them. -/

/-- CAL[0..10], unwritten. -/
opaque unwrittenCAL : Vector Word16 11

/-- BUF[i], unwritten. -/
opaque unwrittenBUF : Nat → Byte

/-- UT, unwritten. -/
opaque unwrittenUT : Word16

/-- UP, unwritten. -/
opaque unwrittenUP : Word24

/-- B5, unwritten. -/
opaque unwrittenB5 : Word64

/-- T_STAGE, unwritten. -/
opaque unwrittenTStage : Word64

/-- RES_T10, unwritten. -/
opaque unwrittenResT10 : Word64

/-- RES_P, unwritten. -/
opaque unwrittenResP : Word64

/-- The pressure that M8 hands to M9 (R149), unwritten. -/
opaque unwrittenHandoff : Word64

/-- FREE VALUE (R6, notes/assumptions/7.md): `BUS_SPEED_KHZ` is OPEN, and no rule of the CORE reads it. -/
opaque busSpeedKhz : Nat

end Config

end Sys2Proof
end

