-- ==== Sys2Proof/Syntax.lean ====
section
/-! DEFINITION. The instructions of spec/opcode_table.json: five host commands and the two device command bytes
(30_encoding.md R91, R97). -/

namespace Sys2Proof

/-- One constructor per row of the opcode table. -/
inductive Instr where
  /-- BEGIN: load the calibration store from the device (R112). -/
  | begin
  /-- MEASURE: run one measurement cycle (R130). -/
  | measure
  /-- CONFIG: set the oversampling exponent (R155). -/
  | config (oss : BitVec 2)
  /-- GET_T: read the last published temperature (R220). -/
  | getT
  /-- GET_P: read the last published pressure (R221). -/
  | getP
  /-- START_T: the device command byte that starts a temperature conversion, written at M1 (R97, R133). -/
  | startT
  /-- START_P: the device command byte that starts a pressure conversion, written at M5 (R97, R145). -/
  | startP (oss : BitVec 2)
  deriving DecidableEq, Repr

/-- The two places where an encoded instruction stands: the host command port (R90) and the device's control
register, reached through the bus port (R97). -/
inductive Port where
  | host
  | bus
  deriving DecidableEq, Repr

end Sys2Proof
end

