-- ==== Sys2Proof/Machine/State.lean ====
section
/-! DEFINITION. The state of the CORE (10_state.md R30) as plain data, with the records and inputs around it, and the
state after reset (R47, R260). -/

namespace Sys2Proof.Machine

open Sys2Proof

/-- The sequencer's step, which stands in for a program counter (R36). The codes 0xC..0xF have no constructor: they
are never held. -/
inductive Seq where
  | idle | m1 | m2 | m3 | m4 | m5 | m6 | m7 | m8 | m9 | l1 | l2
  deriving DecidableEq, Repr

/-- The outcome codes of a response (30_encoding.md R94). The codes 0x6..0xF have no constructor: they are never
produced. -/
inductive Status where
  | ok | notCalibrated | busError | calibrationInvalid | arithFault | illegalCommand
  deriving DecidableEq, Repr

/-- The response record (30_encoding.md R93). -/
structure Response where
  status : Status
  /-- The step that raised the error; `Seq.idle`, whose code is 0x0, where R93 says 0x0. -/
  step : Seq
  valid : Bool
  value : Word64
  deriving DecidableEq, Repr

/-- One event of the observable trace (20_memory.md R79). The device address is recorded with it: every transaction
names `DEV_ADDR` (R61, R66, R67). -/
inductive Event where
  /-- A read transaction of `n` bytes: `some b` is `ok(b[0..n-1])`, `none` is `fail`. -/
  | rd (dev : BitVec 7) (addr : Byte) (n : Nat) (answer : Option (List Byte))
  /-- A write transaction of one data byte: `ok` or `fail`. -/
  | wr (dev : BitVec 7) (addr v : Byte) (ok : Bool)
  /-- A delay request. -/
  | dly (ms : Nat)
  deriving DecidableEq, Repr

/-- What the host can do to the CORE at its command port (70_reset_and_hazards.md R271). -/
inductive HostMove where
  /-- Present one command word (R92). -/
  | command (w : Byte)
  /-- Reset, which is construction with these parameters (R260, R262). -/
  | construct (p : Params)
  deriving DecidableEq, Repr

/-- Why the machine stops with a fault: for no reason. An error of the CORE is a response, after which the machine goes on
(R234, R237), and a register that nothing has written reads as a free value (notes/assumptions/1.md). -/
inductive Fault where
  deriving DecidableEq, Repr

/-- Why the machine gives an instruction no meaning. -/
inductive Refusal where
  /-- The instruction has no meaning yet. Raised by `exec`'s arms only. Safe: the machine stops. -/
  | notModelled (mnemonic : String)
  deriving DecidableEq, Repr

/-- The state. In a register `none` says that nothing has written it since reset (R46, R47); it then reads as a free value
of Config (notes/assumptions/1.md). -/
structure State where
  /-- CAL[0..10], the calibration store, written whole or not at all (R31, R114). -/
  cal : Option (Vector Word16 11)
  /-- CAL_VALID (R33). -/
  calValid : Bool
  /-- OSS (R34). -/
  oss : BitVec 2
  /-- SEQ (R36). -/
  seq : Seq
  /-- BUF, the bus receive buffer, byte by byte (R38). -/
  buf : Vector (Option Byte) 22
  /-- UT, the raw temperature (R38). -/
  ut : Option Word16
  /-- UP, the normalised raw pressure (R38). -/
  up : Option Word24
  /-- B5 (R39). -/
  b5 : Option Word64
  /-- T_STAGE (R40). -/
  tStage : Option Word64
  /-- RES_T10 (R41). -/
  resT10 : Option Word64
  /-- RES_P (R41). -/
  resP : Option Word64
  /-- RES_VALID (R41). -/
  resValid : Bool
  /-- CMD, the command being executed (R43). -/
  cmd : Option Byte
  /-- The pressure that M8 hands to M9 (R149, R48(d)). -/
  pHandoff : Option Word64
  /-- The parameters of this instance (R6). -/
  params : Params
  /-- Host moves not yet taken, oldest first (R92, R271). -/
  hostPort : List HostMove
  /-- Answers the transport is known to give next, oldest first (R68). -/
  busIn : List BusAnswer
  /-- How many answers have been drawn from `Config.busAnswer` (R68). -/
  busDraws : Nat
  /-- The events issued, oldest first (R79). -/
  trace : List Event
  /-- The responses emitted, oldest first (R93). -/
  responses : List Response
  deriving DecidableEq, Repr

/-- Reset is construction of the engine with the parameters `p` (R260, R271), at the values of R47. -/
def State.construct (p : Params) : State where
  cal := none
  calValid := false
  oss := p.ossInit
  seq := .idle
  buf := #v[none, none, none, none, none, none, none, none, none, none, none,
    none, none, none, none, none, none, none, none, none, none, none]
  ut := none
  up := none
  b5 := none
  tStage := none
  resT10 := none
  resP := none
  resValid := false
  cmd := none
  pHandoff := none
  params := p
  hostPort := []
  busIn := []
  busDraws := 0
  trace := []
  responses := []

/-- The machine right after reset, with the default parameters of R6. -/
def State.reset : State := State.construct Config.defaultParams

end Sys2Proof.Machine
end

