-- ==== Sys2Proof/Machine/Flags.lean ====
section
/-! DEFINITION. The flags. The CORE has no arithmetic flags; its status flags are CAL_VALID and RES_VALID
(10_state.md R45), each written by one rule, and STATE is a view of CAL_VALID and SEQ (R37). -/

namespace Sys2Proof.Machine

/-- The source's state-machine state (R37). -/
inductive Phase where
  | uninitialized | calibrated | measuringTemperature | measuringPressure
  deriving DecidableEq, Repr

/-- The steps of MEASURE (R130). -/
def Seq.measuring : Seq → Bool
  | .m1 | .m2 | .m3 | .m4 | .m5 | .m6 | .m7 | .m8 | .m9 => true
  | .idle | .l1 | .l2 => false

/-- The steps of BEGIN (R112). -/
def Seq.loading : Seq → Bool
  | .l1 | .l2 => true
  | .idle | .m1 | .m2 | .m3 | .m4 | .m5 | .m6 | .m7 | .m8 | .m9 => false

/-- The phase while no conversion is in progress: CAL_VALID decides (R37). -/
def restingPhase (calValid : Bool) : Phase := if calValid then .calibrated else .uninitialized

/-- STATE, a view computed from CAL_VALID and SEQ (R37). R37 gives no line for M9 with CAL_VALID = 0, which no run
reaches (R48(b)); see notes/assumptions/14.md. -/
def State.phase (s : State) : Phase :=
  match s.seq with
  | .m1 | .m2 | .m3 | .m4 => .measuringTemperature
  | .m5 | .m6 | .m7 | .m8 => .measuringPressure
  | .idle | .l1 | .l2 | .m9 => restingPhase s.calValid

/-- The host port is ready exactly while SEQ = IDLE (30_encoding.md R92). -/
def State.ready (s : State) : Bool := s.seq = .idle

/-- CAL_VALID <- 1: L2 only (R33, R114). -/
def State.setCalValid (s : State) : State := { s with calValid := true }

/-- RES_VALID <- 1: M9 only (R41, R150). -/
def State.setResValid (s : State) : State := { s with resValid := true }

end Sys2Proof.Machine
end

