-- ==== Sys2Proof/WellFormed.lean ====
section
/-! DEFINITION. Which instruction may stand on which port. The operand range of CONFIG and START_P, 0..3 (R96), is
held by the type of the operand. -/

namespace Sys2Proof

/-- The host port takes the five host commands only, the bus port the two device command bytes only
(30_encoding.md R91, R97). -/
def Instr.wellFormed : Port → Instr → Bool
  | .host, .begin => true
  | .host, .measure => true
  | .host, .config _ => true
  | .host, .getT => true
  | .host, .getP => true
  | .host, .startT => false
  | .host, .startP _ => false
  | .bus, .begin => false
  | .bus, .measure => false
  | .bus, .config _ => false
  | .bus, .getT => false
  | .bus, .getP => false
  | .bus, .startT => true
  | .bus, .startP _ => true

/-- A program is a sequence of host commands (R99). -/
def wellFormedProgram (p : List Instr) : Bool := p.all (Instr.wellFormed .host)

end Sys2Proof
end

