-- ==== Sys2Proof/Decode.lean ====
section
/-! DEFINITION. The host command word and the device command byte (30_encoding.md R90 to R98): decoding, total on
every byte and rejecting by name, and the encoder. -/

namespace Sys2Proof

/-- Why a byte is no instruction on the port it stands on (R95, R98). The order in which the three reasons of R95 are
looked at is the model's (notes/assumptions/18.md); the CORE's answer is the same for all three. -/
inductive DecodeError where
  /-- OP is not in 1..5 (R95). -/
  | unassignedOp
  /-- RSV is not 0 (R95). -/
  | reservedBits
  /-- OPD is not 0 and the command has no operand (R95). -/
  | unusedOperand
  /-- The CORE writes no such byte to the control register (R98). -/
  | noDeviceCommand
  deriving DecidableEq, Repr

/-- OP, bits 7..4 of a host command word (R90). -/
def opField (w : Byte) : BitVec 4 := w.extractLsb' 4 4

/-- RSV, bits 3..2 of a host command word (R90). -/
def rsvField (w : Byte) : BitVec 2 := w.extractLsb' 2 2

/-- OPD, bits 1..0 of a host command word (R90, R96). -/
def opdField (w : Byte) : BitVec 2 := w.extractLsb' 0 2

/-- A command without operand: OPD must be 0 (R90). -/
def withoutOperand (w : Byte) (i : Instr) : Except DecodeError Instr :=
  if opdField w = 0 then .ok i else .error .unusedOperand

/-- The host command word (R90, R91, R95, R96). -/
def decodeHost (w : Byte) : Except DecodeError Instr :=
  if opField w = 0 ∨ 6 ≤ (opField w).toNat then .error .unassignedOp
  else if rsvField w ≠ 0 then .error .reservedBits
  else if opField w = 1 then withoutOperand w .begin
  else if opField w = 2 then withoutOperand w .measure
  else if opField w = 3 then .ok (.config (opdField w))
  else if opField w = 4 then withoutOperand w .getT
  else withoutOperand w .getP

/-- The device command byte: 0x2E, or 0x34 in bits 5..0 with the exponent in bits 7..6 (R97, R98). -/
def decodeBus (v : Byte) : Except DecodeError Instr :=
  if v = 0x2E then .ok .startT
  else if v.extractLsb' 0 6 = 0x34 then .ok (.startP (v.extractLsb' 6 2))
  else .error .noDeviceCommand

/-- The instruction a byte stands for on a port. -/
def decode : Port → Byte → Except DecodeError Instr
  | .host, w => decodeHost w
  | .bus, v => decodeBus v

/-- The word of a host command (R91), the byte of a device command (R97: the shift is made before the sum,
90_conflicts.md C2). -/
def encode : Instr → Byte
  | .begin => 0x10
  | .measure => 0x20
  | .config oss => 0x30 + oss.setWidth 8
  | .getT => 0x40
  | .getP => 0x50
  | .startT => 0x2E
  | .startP oss => 0x34 + (oss.setWidth 8 <<< 6)

/-- The instruction of a row of spec/opcode_table.json whose bits are `w`: every row is one byte, and no byte is an
instruction on both ports. -/
def decodeTableWord (nbits w : Nat) : Option Instr :=
  let b : Byte := BitVec.ofNat 8 (w % 2 ^ nbits)
  match decode .host b with
  | .ok i => some i
  | .error _ =>
    match decode .bus b with
    | .ok i => some i
    | .error _ => none

end Sys2Proof
end

