-- ==== Sys2Proof/Machine/Datapath.lean ====
section
/-! DEFINITION. The datapath's integer laws (00_scope.md R10 to R16): each operation computes the exact integer and
then narrows it with `wrap64`. -/

namespace Sys2Proof.Machine

open Sys2Proof

/-- The 64-bit two's-complement value congruent to `v` modulo 2^64 (R10). -/
def wrap64 (v : Int) : Word64 := BitVec.ofInt 64 v

/-- `sext_16` (R7): the word read as two's complement. -/
def sext16 (w : Word16) : Word64 := wrap64 w.toInt

/-- `zext_N` (R7): the word read as unsigned. -/
def zext {n : Nat} (w : BitVec n) : Word64 := wrap64 w.toNat

/-- `a + b` (R11). -/
def dpAdd (a b : Word64) : Word64 := wrap64 (a.toInt + b.toInt)

/-- `a - b` (R11). -/
def dpSub (a b : Word64) : Word64 := wrap64 (a.toInt - b.toInt)

/-- `a * b` (R11). -/
def dpMul (a b : Word64) : Word64 := wrap64 (a.toInt * b.toInt)

/-- `a >> n`, the arithmetic right shift: `floor(a / 2^n)` (R12). The divisor is positive, so `/` on Int is the floor. -/
def dpShr (a : Word64) (n : Nat) : Word64 := wrap64 (a.toInt / 2 ^ n)

/-- `a << n` (R13). -/
def dpShl (a : Word64) (n : Nat) : Word64 := wrap64 (a.toInt * 2 ^ n)

/-- `a / b`, truncating toward zero; `none` is the zero divisor, which raises ARITH_FAULT (R14, R231). -/
def dpDiv (a b : Word64) : Option Word64 :=
  if b = 0 then none else some (wrap64 (Int.tdiv a.toInt b.toInt))

/-- `a < b`, signed (R15). -/
def dpLt (a b : Word64) : Bool := a.toInt < b.toInt

end Sys2Proof.Machine
end

