-- ==== Sys2Proof/Machine/Operands.lean ====
section
/-! DEFINITION. Every operand form: the typed views of the calibration words (10_state.md R32), the assembly of
multi-byte values (20_memory.md R64, R65), the oversampling exponent with its settings (R35, R141), the device
registers (R62), and the codes of SEQ, STATUS and the response (R36, R93, R94). -/

namespace Sys2Proof.Machine

open Sys2Proof

/-! The calibration store's typed views (R31, R32). -/

/-- The 11 words of the store. -/
abbrev CalWords := Vector Word16 11

def calAC1 (words : CalWords) : Word64 := sext16 words[0]
def calAC2 (words : CalWords) : Word64 := sext16 words[1]
def calAC3 (words : CalWords) : Word64 := sext16 words[2]
def calAC4 (words : CalWords) : Word64 := zext words[3]
def calAC5 (words : CalWords) : Word64 := zext words[4]
def calAC6 (words : CalWords) : Word64 := zext words[5]
def calB1 (words : CalWords) : Word64 := sext16 words[6]
def calB2 (words : CalWords) : Word64 := sext16 words[7]
/-- MB: no rule reads it (R31). -/
def calMB (words : CalWords) : Word64 := sext16 words[8]
def calMC (words : CalWords) : Word64 := sext16 words[9]
def calMD (words : CalWords) : Word64 := sext16 words[10]

/-! Byte order (R64, R65). -/

/-- `hi : lo`, a 16-bit word with its most significant byte first (R64, R65). -/
def bytes16 (hi lo : Byte) : Word16 := hi ++ lo

/-- `b0 : b1 : b2`, the 24-bit raw pressure with its most significant byte first (R65). -/
def bytes24 (b0 b1 b2 : Byte) : Word24 := b0 ++ b1 ++ b2

/-- The normalised raw pressure, `raw24 >> (8 - OSS)` (R147, R148). -/
def normaliseUP (raw24 : Word24) (oss : BitVec 2) : Word24 := raw24 >>> (8 - oss.toNat)

/-! The device registers the CORE uses (R62). -/

def calibrationReg : Byte := 0xAA
def controlReg : Byte := 0xF4
def resultReg : Byte := 0xF6

/-! The oversampling exponent (R34, R35, R141). -/

/-- The four settings, in the source's order (R35). -/
inductive Setting where
  | ultraLowPower | standard | highResolution | ultraHighResolution
  deriving DecidableEq, Repr

/-- The setting an exponent names (R35). -/
def settingOf (oss : BitVec 2) : Setting :=
  if oss = 0 then .ultraLowPower
  else if oss = 1 then .standard
  else if oss = 2 then .highResolution
  else .ultraHighResolution

/-- The exponent of a setting (R35). -/
def exponentOf : Setting → BitVec 2
  | .ultraLowPower => 0
  | .standard => 1
  | .highResolution => 2
  | .ultraHighResolution => 3

/-- The temperature settle delay in milliseconds, for every exponent (R134, R141). -/
def temperatureDelay : Nat := 5

/-- `d(oss)`, the pressure settle delay in milliseconds (R141). -/
def pressureDelay (oss : BitVec 2) : Nat :=
  match settingOf oss with
  | .ultraLowPower => 5
  | .standard => 8
  | .highResolution => 14
  | .ultraHighResolution => 26

/-- The nominal pressure settle time, in tenths of a millisecond (R141). The CORE issues no such request. -/
def nominalSettleTenths (oss : BitVec 2) : Nat :=
  match settingOf oss with
  | .ultraLowPower => 45
  | .standard => 75
  | .highResolution => 135
  | .ultraHighResolution => 255

/-- The significant bits of UP (R35). -/
def upBits (oss : BitVec 2) : Nat := 16 + oss.toNat

/-! Codes (R36, R93, R94). -/

/-- The code of a sequencer step (R36). -/
def Seq.code : Seq → BitVec 4
  | .idle => 0x0
  | .m1 => 0x1
  | .m2 => 0x2
  | .m3 => 0x3
  | .m4 => 0x4
  | .m5 => 0x5
  | .m6 => 0x6
  | .m7 => 0x7
  | .m8 => 0x8
  | .m9 => 0x9
  | .l1 => 0xA
  | .l2 => 0xB

/-- The code of an outcome (R94). -/
def Status.code : Status → BitVec 4
  | .ok => 0x0
  | .notCalibrated => 0x1
  | .busError => 0x2
  | .calibrationInvalid => 0x3
  | .arithFault => 0x4
  | .illegalCommand => 0x5

/-- The 73-bit response word: VALUE, VALID, STEP, STATUS from the top down (R93). -/
def Response.word (r : Response) : BitVec 73 :=
  r.value ++ BitVec.ofBool r.valid ++ r.step.code ++ r.status.code

/-- The bytes a write transaction puts on the bus: the register address first, then the data byte (R67). A read and a
delay put none there. -/
def Event.bytesSent : Event → List Byte
  | .rd _ _ _ _ => []
  | .wr _ addr v _ => [addr, v]
  | .dly _ => []

/-- The temperature a GET_T response stands for, in degrees: VALUE / 10, an exact rational (R222). Outside the CORE:
no step reads it. -/
def Response.celsius (r : Response) : Rat := (r.value.toInt : Rat) / 10

end Sys2Proof.Machine
end

