-- ==== Sys2Proof/Machine/Ops.lean ====
section
/-! DEFINITION. The named operations the steps are made of: the command handshake (30_encoding.md R92), the response
(R93), the abort (60_exceptions.md R234), the bus port (20_memory.md R66, R67) and the delay port
(41_measurement_sequencer.md R140). -/

namespace Sys2Proof.Machine

open Sys2Proof

/-! Reading a register. One that nothing has written since reset reads as the free value that Config names for it (R46,
notes/assumptions/1.md). -/

/-- The value a register reads as. -/
def readRegister {α : Type} (held : Option α) (unwritten : α) : α := held.getD unwritten

def State.readCAL (s : State) : CalWords := readRegister s.cal Config.unwrittenCAL

/-- BUF[0..21]. -/
def State.readBUF (s : State) : Vector Byte 22 :=
  Vector.ofFn fun i : Fin 22 => readRegister s.buf[i] (Config.unwrittenBUF i)

def State.readUT (s : State) : Word16 := readRegister s.ut Config.unwrittenUT

def State.readUP (s : State) : Word24 := readRegister s.up Config.unwrittenUP

def State.readB5 (s : State) : Word64 := readRegister s.b5 Config.unwrittenB5

def State.readTStage (s : State) : Word64 := readRegister s.tStage Config.unwrittenTStage

def State.readResT10 (s : State) : Word64 := readRegister s.resT10 Config.unwrittenResT10

def State.readResP (s : State) : Word64 := readRegister s.resP Config.unwrittenResP

/-- The pressure handed from M8 to M9 (R149). -/
def State.readHandoff (s : State) : Word64 := readRegister s.pHandoff Config.unwrittenHandoff

/-! The host port. -/

/-- The host presents a move while the port is not ready: it is held, behind those already pending (R92). -/
def State.present (m : HostMove) (s : State) : State := { s with hostPort := s.hostPort ++ [m] }

/-- Accepting a command sets CMD to its word (R92). -/
def State.accept (w : Byte) (s : State) : State := { s with cmd := some w }

/-- `emit RSP`: send the response; after it SEQ = IDLE (R93), and no command is in progress (R43). -/
def State.emit (r : Response) (s : State) : State :=
  { s with responses := s.responses ++ [r], seq := .idle, cmd := none }

/-- `RSP(OK, 0x0, 0, 0)`. -/
def okResponse : Response := { status := .ok, step := .idle, valid := false, value := 0 }

/-- `RSP(OK, 0x0, 1, v)`: the answer of a getter (R220, R221). -/
def valueResponse (v : Word64) : Response := { status := .ok, step := .idle, valid := true, value := v }

/-- `RSP(E, code(s), 0, 0)` (R230). -/
def errorResponse (e : Status) (at' : Seq) : Response := { status := e, step := at', valid := false, value := 0 }

/-- `raise E(step = s)`, the abort: the error response, SEQ to IDLE, and nothing else changes (R234). There is no
handler and no return from one (R237). -/
def raiseError (e : Status) (at' : Seq) (s : State) : State := s.emit (errorResponse e at')

/-- Run a host command's acceptance if the port is ready; otherwise the command is held (R92). -/
def acceptOrHold (i : Instr) (s : State) (k : State → Host.Outcome State Fault Refusal) :
    Host.Outcome State Fault Refusal :=
  if s.ready then k (s.accept (encode i)) else .next (s.present (.command (encode i)))

/-! The bus port. -/

/-- Record one event (R79). -/
def State.record (e : Event) (s : State) : State := { s with trace := s.trace ++ [e] }

/-- The transport's answer to the next transaction: the next one listed in State, else a free draw (R68). -/
def nextAnswer (s : State) : BusAnswer :=
  match s.busIn with
  | a :: _ => a
  | [] => Config.busAnswer s.busDraws

/-- The state after the transport has answered. -/
def State.takeAnswer (s : State) : State :=
  match s.busIn with
  | _ :: rest => { s with busIn := rest }
  | [] => { s with busDraws := s.busDraws + 1 }

/-- A read of `n` bytes succeeds if the transport returns no error and exactly `n` bytes (R66). -/
def readOk (n : Nat) (a : BusAnswer) : Bool := !a.busError && a.bytesRead == n

/-- BUF after a successful read of `n` bytes: BUF[0..n-1] holds the bytes received (R66(a)). -/
def bufReceive (n : Nat) (bytes : Vector Byte 22) (old : Vector (Option Byte) 22) : Vector (Option Byte) 22 :=
  Vector.ofFn fun i : Fin 22 => if i.val < n then some bytes[i] else old[i]

/-- BUF after a failed read: any bytes (R66). -/
def bufLeftover (bytes : Vector Byte 22) : Vector (Option Byte) 22 := Vector.ofFn fun i : Fin 22 => some bytes[i]

/-- The event of a read of `n` bytes (R79). -/
def readEvent (s : State) (addr : Byte) (n : Nat) (a : BusAnswer) : Event :=
  .rd s.params.devAddr addr n (if readOk n a then some (a.bytes.toList.take n) else none)

/-- `MemRead(addr, n)` (R66): the bytes received, of which `b[0..n-1]` are meant, or `none` for BUS_ERROR; and the
state after the transaction. -/
def memRead (addr : Byte) (n : Nat) (s : State) : Option (Vector Byte 22) × State :=
  let a := nextAnswer s
  let s' := s.takeAnswer.record (readEvent s addr n a)
  if readOk n a then (some a.bytes, { s' with buf := bufReceive n a.bytes s.buf })
  else (none, { s' with buf := bufLeftover a.bytes })

/-- `MemWrite(addr, 1, v)` (R67): whether it succeeded, and the state after the transaction. -/
def memWrite (addr v : Byte) (s : State) : Bool × State :=
  let a := nextAnswer s
  (!a.busError, s.takeAnswer.record (.wr s.params.devAddr addr v (!a.busError)))

/-- A step that writes a start command to the control register and moves on, or raises BUS_ERROR (R133, R145). -/
def startConversion (command : Byte) (here after : Seq) (s : State) : State :=
  let r := memWrite controlReg command s
  if r.1 then { r.2 with seq := after } else raiseError .busError here r.2

/-! The delay port. -/

/-- A settle step: `Delay(ms)`, which always returns, and then the next step (R140). -/
def settle (ms : Nat) (after : Seq) (s : State) : State := { s.record (.dly ms) with seq := after }

end Sys2Proof.Machine
end

