-- ==== Sys2Proof/Machine/CalibrationStore.lean ====
section
/-! DEFINITION. The calibration store: `load`, and BEGIN with its steps L1 and L2 (40_calibration_store.md). -/

namespace Sys2Proof.Machine

open Sys2Proof

/-- The 11 words of a 22-byte block, big-endian (R110, R64). -/
def blockWords (raw : Vector Byte 22) : CalWords :=
  #v[bytes16 raw[0] raw[1], bytes16 raw[2] raw[3], bytes16 raw[4] raw[5], bytes16 raw[6] raw[7],
    bytes16 raw[8] raw[9], bytes16 raw[10] raw[11], bytes16 raw[12] raw[13], bytes16 raw[14] raw[15],
    bytes16 raw[16] raw[17], bytes16 raw[18] raw[19], bytes16 raw[20] raw[21]]

/-- A word that the sentinel check rejects (R110). -/
def isSentinel (w : Word16) : Bool := w == 0x0000 || w == 0xFFFF

/-- `load`, a pure function: the 11 words, or CalibrationInvalid with the lowest failing index (R110, R111). -/
def load (sentinelCheck : Bool) (raw : Vector Byte 22) : Except Nat CalWords :=
  match if sentinelCheck then (blockWords raw).toList.findIdx? isSentinel else none with
  | some i => .error i
  | none => .ok (blockWords raw)

/-- L1: read the coefficient block in one transaction (R113). -/
def stepL1 (s : State) : State :=
  let r := memRead calibrationReg 22 s
  match r.1 with
  | some _ => { r.2 with seq := .l2 }
  | none => raiseError .busError .l1 r.2

/-- L2 on the block `raw` read at L1: decode, check, and store all 11 words or none (R114). -/
def commitBlock (raw : Vector Byte 22) (s : State) : State :=
  match load s.params.calSentinelCheck raw with
  | .error _ => raiseError .calibrationInvalid .l2 s
  | .ok words => (State.setCalValid { s with cal := some words }).emit okResponse

/-- L2 (R114). -/
def stepL2 (s : State) : State := commitBlock s.readBUF s

/-- BEGIN: acceptance in every STATE while SEQ = IDLE, then L1, then L2 (R112). -/
def execBegin (s : State) : Host.Outcome State Fault Refusal :=
  match s.seq with
  | .l1 => .next (stepL1 s)
  | .l2 => .next (stepL2 s)
  | .idle | .m1 | .m2 | .m3 | .m4 | .m5 | .m6 | .m7 | .m8 | .m9 =>
    acceptOrHold .begin s fun s' => .next { s' with seq := .l1 }

end Sys2Proof.Machine
end

