-- ==== Sys2Proof/Machine/Compensation.lean ====
section
/-! DEFINITION. The two datapath functions: CompT (42_temperature_compensation.md) and CompP
(43_pressure_compensation.md), line for line. `none` is ARITH_FAULT (R231). -/

namespace Sys2Proof.Machine

open Sys2Proof

/-- `X1 = ((UT - AC6) * AC5) >> 15` (R171). -/
def tempX1 (c : CalWords) (ut : Word16) : Word64 := dpShr (dpMul (dpSub (zext ut) (calAC6 c)) (calAC5 c)) 15

/-- `X2 = (MC << 11) / (X1 + MD)` (R172). -/
def tempX2 (c : CalWords) (x1 : Word64) : Option Word64 := dpDiv (dpShl (calMC c) 11) (dpAdd x1 (calMD c))

/-- `T10 = (B5 + 8) >> 4` (R174). -/
def tempT10 (b5 : Word64) : Word64 := dpShr (dpAdd b5 8) 4

/-- CompT: T10 and B5, or ARITH_FAULT (R170). -/
def compT (c : CalWords) (ut : Word16) : Option (Word64 × Word64) :=
  let x1 := tempX1 c ut
  match tempX2 c x1 with
  | none => none
  | some x2 =>
    let b5 := dpAdd x1 x2
    some (tempT10 b5, b5)

/-- `B6 = B5 - 4000` (R191). -/
def presB6 (b5 : Word64) : Word64 := dpSub b5 4000

/-- `B6*B6 >> 12`, which R192 and R197 share. -/
def presSquare (b6 : Word64) : Word64 := dpShr (dpMul b6 b6) 12

/-- B3, with the first X1, X2 and X3 (R192 to R195). -/
def presB3 (c : CalWords) (b6 : Word64) (oss : BitVec 2) : Word64 :=
  let x1 := dpShr (dpMul (calB2 c) (presSquare b6)) 11
  let x2 := dpShr (dpMul (calAC2 c) b6) 11
  let x3 := dpAdd x1 x2
  dpShr (dpAdd (dpShl (dpAdd (dpMul (calAC1 c) 4) x3) oss.toNat) 2) 2

/-- B4, with the second X1, X2 and X3 (R196 to R199). -/
def presB4 (c : CalWords) (b6 : Word64) : Word64 :=
  let x1 := dpShr (dpMul (calAC3 c) b6) 13
  let x2 := dpShr (dpMul (calB1 c) (presSquare b6)) 16
  let x3 := dpShr (dpAdd (dpAdd x1 x2) 2) 2
  dpShr (dpMul (calAC4 c) (dpAdd x3 32768)) 15

/-- `B7 = (UP - B3) * (50000 >> oss)` (R200). -/
def presB7 (up : Word24) (b3 : Word64) (oss : BitVec 2) : Word64 :=
  dpMul (dpSub (zext up) b3) (dpShr 50000 oss.toNat)

/-- `P = (B7 < 0x80000000) ? (B7 << 1) / B4 : (B7 / B4) << 1`; only the branch taken is evaluated (R201, R16). -/
def presBranch (b7 b4 : Word64) : Option Word64 :=
  if dpLt b7 0x80000000 then dpDiv (dpShl b7 1) b4 else (dpDiv b7 b4).map (dpShl · 1)

/-- The final correction of P (R202 to R205). -/
def presCorrect (p : Word64) : Word64 :=
  let square := dpMul (dpShr p 8) (dpShr p 8)
  let x1 := dpShr (dpMul square 3038) 16
  let x2 := dpShr (dpMul (-7357) p) 16
  dpAdd p (dpShr (dpAdd (dpAdd x1 x2) 3791) 4)

/-- CompP: P, or ARITH_FAULT (R190). -/
def compP (c : CalWords) (up : Word24) (b5 : Word64) (oss : BitVec 2) : Option Word64 :=
  let b6 := presB6 b5
  let b3 := presB3 c b6 oss
  let b4 := presB4 c b6
  let b7 := presB7 up b3 oss
  (presBranch b7 b4).map presCorrect

end Sys2Proof.Machine
end

