-- ==== Sys2Proof/Machine/Measurement.lean ====
section
/-! DEFINITION. MEASURE with its steps M1 to M9, the two device commands it issues, and CONFIG
(41_measurement_sequencer.md). -/

namespace Sys2Proof.Machine

open Sys2Proof

/-- Acceptance: NOT_CALIBRATED if CAL_VALID = 0, else the first step (R131). -/
def acceptMeasure (s : State) : State :=
  if s.calValid then { s with seq := .m1 } else raiseError .notCalibrated .idle s

/-- M1: start the temperature conversion (R133). -/
def stepM1 (s : State) : State := startConversion (encode .startT) .m1 .m2 s

/-- M2: settle 5 ms (R134). -/
def stepM2 (s : State) : State := settle temperatureDelay .m3 s

/-- M3: read the raw temperature (R135). -/
def stepM3 (s : State) : State :=
  let r := memRead resultReg 2 s
  match r.1 with
  | some b => { r.2 with ut := some (bytes16 b[0] b[1]), seq := .m4 }
  | none => raiseError .busError .m3 r.2

/-- What M4 does with the result of CompT (R136). -/
def stageTemperature (result : Option (Word64 × Word64)) (s : State) : State :=
  match result with
  | some (t10, b5) => { s with tStage := some t10, b5 := some b5, seq := .m5 }
  | none => raiseError .arithFault .m4 s

/-- M4: compute the true temperature (R136). -/
def stepM4 (s : State) : State := stageTemperature (compT s.readCAL s.readUT) s

/-- M5: start the pressure conversion at the exponent `oss` (R145). -/
def stepM5 (oss : BitVec 2) (s : State) : State := startConversion (encode (.startP oss)) .m5 .m6 s

/-- M6: settle by OSS (R146). -/
def stepM6 (s : State) : State := settle (pressureDelay s.oss) .m7 s

/-- M7: read the raw pressure and normalise it (R147, R148). -/
def stepM7 (s : State) : State :=
  let r := memRead resultReg 3 s
  match r.1 with
  | some b => { r.2 with up := some (normaliseUP (bytes24 b[0] b[1] b[2]) s.oss), seq := .m8 }
  | none => raiseError .busError .m7 r.2

/-- What M8 does with the result of CompP (R149). -/
def handPressure (result : Option Word64) (s : State) : State :=
  match result with
  | some p => { s with pHandoff := some p, seq := .m9 }
  | none => raiseError .arithFault .m8 s

/-- M8: compute the true pressure and hand it to M9 (R149). -/
def stepM8 (s : State) : State := handPressure (compP s.readCAL s.readUP s.readB5 s.oss) s

/-- Publish a temperature and a pressure together (R150). -/
def publish (t p : Word64) (s : State) : State :=
  (State.setResValid { s with resT10 := some t, resP := some p, pHandoff := none }).emit okResponse

/-- M9: publish the results and return to idle (R150). -/
def stepM9 (s : State) : State := publish s.readTStage s.readHandoff s

/-- START_T: the sequencer writes 0x2E to the control register, at M1 (R97, R133). -/
def execStartT (s : State) : Host.Outcome State Fault Refusal := .next (stepM1 s)

/-- START_P: the sequencer writes `0x34 + (oss << 6)` to the control register, at M5 (R97, R145). -/
def execStartP (oss : BitVec 2) (s : State) : Host.Outcome State Fault Refusal := .next (stepM5 oss s)

/-- MEASURE: acceptance while SEQ = IDLE, then M1 to M9 (R130, R132). -/
def execMeasure (s : State) : Host.Outcome State Fault Refusal :=
  match s.seq with
  | .m1 => .next (stepM1 s)
  | .m2 => .next (stepM2 s)
  | .m3 => .next (stepM3 s)
  | .m4 => .next (stepM4 s)
  | .m5 => .next (stepM5 s.oss s)
  | .m6 => .next (stepM6 s)
  | .m7 => .next (stepM7 s)
  | .m8 => .next (stepM8 s)
  | .m9 => .next (stepM9 s)
  | .idle | .l1 | .l2 => acceptOrHold .measure s fun s' => .next (acceptMeasure s')

/-- CONFIG: OSS <- oss, in every STATE while SEQ = IDLE (R155). -/
def execConfig (oss : BitVec 2) (s : State) : Host.Outcome State Fault Refusal :=
  acceptOrHold (.config oss) s fun s' => .next (State.emit okResponse { s' with oss := oss })

end Sys2Proof.Machine
end

