-- ==== Sys2Proof/Machine/ResultAccess.lean ====
section
/-! DEFINITION. The two accessors of the published results (44_result_access.md). -/

namespace Sys2Proof.Machine

open Sys2Proof

/-- A getter's answer: the register's value if RES_VALID = 1, else the "unavailable" marker, VALID = 0 (R220, R221). -/
def answerResult (v : Word64) (s : State) : State := s.emit (if s.resValid then valueResponse v else okResponse)

/-- GET_T: the last published temperature, in every STATE while SEQ = IDLE (R220). -/
def execGetT (s : State) : Host.Outcome State Fault Refusal :=
  acceptOrHold .getT s fun s' => .next (answerResult s'.readResT10 s')

/-- GET_P: the last published pressure, in every STATE while SEQ = IDLE (R221). -/
def execGetP (s : State) : Host.Outcome State Fault Refusal :=
  acceptOrHold .getP s fun s' => .next (answerResult s'.readResP s')

end Sys2Proof.Machine
end

