-- ==== Sys2Proof/Machine/Dispatch.lean ====
section
/-! DEFINITION. One arm per instruction. -/

namespace Sys2Proof.Machine

open Sys2Proof

def exec (i : Instr) (s : State) : Host.Outcome State Fault Refusal :=
  match i with
  | .begin => Sys2Proof.Machine.execBegin s
  | .measure => Sys2Proof.Machine.execMeasure s
  | .config oss => Sys2Proof.Machine.execConfig oss s
  | .getT => Sys2Proof.Machine.execGetT s
  | .getP => Sys2Proof.Machine.execGetP s
  | .startT => Sys2Proof.Machine.execStartT s
  | .startP oss => Sys2Proof.Machine.execStartP oss s

end Sys2Proof.Machine
end

