-- ==== Sys2Proof/Machine/HostPort.lean ====
section
/-! DEFINITION. Where the next instruction comes from: the host port while SEQ = IDLE (30_encoding.md R92), the
sequencer otherwise (10_state.md R36). The CORE fetches nothing from memory (20_memory.md R77). -/

namespace Sys2Proof.Machine

open Sys2Proof

/-- What the machine does in the coming step. -/
inductive Fetched where
  /-- Run this instruction in this state. -/
  | run (i : Instr) (s : State)
  /-- No instruction runs: this is the state after the step. -/
  | done (s : State)
  deriving DecidableEq, Repr

/-- An illegal command word is accepted and answered with ILLEGAL_COMMAND, with no other effect (R95, R235). -/
def illegalCommand (w : Byte) (s : State) : State := raiseError .illegalCommand .idle (s.accept w)

/-- A construction at the host port (R260, R262): all CORE state at its reset value. What stands outside the CORE, the
host's further moves and the transport's answers, stays. -/
def reconstruct (p : Params) (s : State) : State :=
  { State.construct p with hostPort := s.hostPort, busIn := s.busIn, busDraws := s.busDraws }

/-- The ready port takes the oldest pending host move; with none pending the CORE waits (R92, R261). -/
def fetchFromHost (s : State) : Fetched :=
  match s.hostPort with
  | [] => .done s
  | .construct p :: rest => .done (reconstruct p { s with hostPort := rest })
  | .command w :: rest =>
    match decode .host w with
    | .ok i => .run i { s with hostPort := rest }
    | .error _ => .done (illegalCommand w { s with hostPort := rest })

/-- The next instruction. At M1 and M5 the sequencer issues the device command of that step (R97). -/
def fetch (s : State) : Fetched :=
  match s.seq with
  | .idle => fetchFromHost s
  | .l1 | .l2 => .run .begin s
  | .m1 => .run .startT s
  | .m5 => .run (.startP s.oss) s
  | .m2 | .m3 | .m4 | .m6 | .m7 | .m8 | .m9 => .run .measure s

/-- `s` with the byte `b` where the next step finds its instruction: a device command byte is what the sequencer
issues at M1, or at M5 with OSS = oss; every other byte is the oldest pending word of the ready host port. -/
def placeByte (b : Byte) (s : State) : State :=
  match decode .bus b with
  | .ok .startT => { s with seq := .m1 }
  | .ok (.startP oss) => { s with seq := .m5, oss := oss }
  | .ok .begin | .ok .measure | .ok (.config _) | .ok .getT | .ok .getP | .error _ =>
    { s with seq := .idle, hostPort := .command b :: s.hostPort }

end Sys2Proof.Machine
end

