-- ==== Sys2Proof/Machine/Step.lean ====
section
/-! DEFINITION. One atomic step of the CORE (92_eei_decisions.md D28). -/

namespace Sys2Proof.Machine

open Sys2Proof

/-- One step: run the instruction that `fetch` finds, or what it says happens without one. -/
def step (s : State) : Host.Outcome State Fault Refusal :=
  match fetch s with
  | .run i s' => exec i s'
  | .done s' => .next s'

/-- `s` with the instruction whose bits are `w` placed so that the next step runs it. -/
def State.withFetchWord (s : State) (nbits w : Nat) : State :=
  placeByte (BitVec.ofNat 8 (w % 2 ^ nbits)) s

end Sys2Proof.Machine
end

