-- ==== Sys2Proof/Machine/Assembler.lean ====
section
/-! DEFINITION. The assembly syntax of host programs (30_encoding.md R99): one host command per line, `;` starts a
comment, and every command is one word. Blanks, blank lines and the case of letters: notes/assumptions/19.md. -/

namespace Sys2Proof.Machine

open Sys2Proof

/-- The characters before the comment. -/
def withoutComment (line : List Char) : List Char := line.takeWhile (· != ';')

/-- Blanks separate tokens. -/
def isSeparator (ch : Char) : Bool := ch == ' ' || ch == '\t'

/-- The tokens of a line, given the characters of the token in hand, last first. -/
def tokensFrom : List Char → List Char → List (List Char)
  | [], [] => []
  | held, [] => [held.reverse]
  | held, ch :: rest =>
    if isSeparator ch then
      if held.isEmpty then tokensFrom [] rest else held.reverse :: tokensFrom [] rest
    else tokensFrom (ch :: held) rest

/-- The operand of CONFIG: 0..3, or ULP, STD, HR, UHR (R99). -/
def ossOfToken (token : List Char) : Option (BitVec 2) :=
  if token = "0".toList ∨ token = "ULP".toList then some 0
  else if token = "1".toList ∨ token = "STD".toList then some 1
  else if token = "2".toList ∨ token = "HR".toList then some 2
  else if token = "3".toList ∨ token = "UHR".toList then some 3
  else none

/-- A command without operand (R99). -/
def commandOfToken (token : List Char) : Option Instr :=
  if token = "BEGIN".toList then some .begin
  else if token = "MEASURE".toList then some .measure
  else if token = "GET_T".toList then some .getT
  else if token = "GET_P".toList then some .getP
  else none

/-- The host commands of one line, none or one; `none` where the line is not in the syntax. -/
def parseLine (line : String) : Option (List Instr) :=
  match tokensFrom [] (withoutComment line.toList) with
  | [] => some []
  | [name] => (commandOfToken name).map fun i => [i]
  | [name, operand] =>
    if name = "CONFIG".toList then (ossOfToken operand).map fun oss => [.config oss] else none
  | _ => none

/-- The words of a program, one word per command (R99, R91). -/
def assemble : List String → Option (List Byte)
  | [] => some []
  | line :: rest =>
    match parseLine line, assemble rest with
    | some is, some ws => some (is.map encode ++ ws)
    | _, _ => none

/-- The line that stands for a host command (R99); a device command byte is no line of a program. -/
def lineOf : Instr → Option String
  | .begin => some "BEGIN"
  | .measure => some "MEASURE"
  | .config oss =>
    some (if oss = 0 then "CONFIG 0" else if oss = 1 then "CONFIG 1" else if oss = 2 then "CONFIG 2" else "CONFIG 3")
  | .getT => some "GET_T"
  | .getP => some "GET_P"
  | .startT => none
  | .startP _ => none

end Sys2Proof.Machine
end

