-- ==== Sys2Proof/Safety.lean ====
section
/-! DEFINITION. What every reachable state keeps (10_state.md R48), and what may stand in the trace and on the response
channel (20_memory.md R63, R70; 60_exceptions.md R230). -/

namespace Sys2Proof.Safety

open Sys2Proof Sys2Proof.Machine

/-- The coming step takes this command word from the host port (R92). -/
def TakesWord (s : State) (w : Byte) : Prop := s.seq = .idle ∧ ∃ rest, s.hostPort = .command w :: rest

/-- The coming step takes a construction from the host port (R262, R271). -/
def TakesConstruction (s : State) : Prop := s.seq = .idle ∧ ∃ p rest, s.hostPort = .construct p :: rest

/-- The step after this one within a command, where there is one (R36, R130). -/
def successor : Seq → Option Seq
  | .m1 => some .m2
  | .m2 => some .m3
  | .m3 => some .m4
  | .m4 => some .m5
  | .m5 => some .m6
  | .m6 => some .m7
  | .m7 => some .m8
  | .m8 => some .m9
  | .l1 => some .l2
  | .idle | .m9 | .l2 => none

/-- The event that the step at `q` may issue, with bus address `dev` and OSS = `oss`: transactions T1 to T5 and the two
delays, each at its own step (R70, R134, R146). -/
def EventAt (q : Seq) (dev : BitVec 7) (oss : BitVec 2) (e : Event) : Prop :=
  match q with
  | .l1 => ∃ answer, e = .rd dev 0xAA 22 answer
  | .m1 => ∃ ok, e = .wr dev 0xF4 0x2E ok
  | .m2 => e = .dly 5
  | .m3 => ∃ answer, e = .rd dev 0xF6 2 answer
  | .m5 => ∃ ok, e = .wr dev 0xF4 (0x34 + (oss.setWidth 8 <<< 6)) ok
  | .m6 => e = .dly (pressureDelay oss)
  | .m7 => ∃ answer, e = .rd dev 0xF6 3 answer
  | .idle | .m4 | .m8 | .m9 | .l2 => False

/-- The command word that CMD holds while SEQ is at this step: none when idle (R43). -/
def commandAt (q : Seq) : Option Byte :=
  if q.measuring then some (encode .measure) else if q.loading then some (encode .begin) else none

/-- The steps after the temperature has been staged, M5 to M9 (R48(c)). -/
def temperatureKnown : Seq → Bool
  | .m5 | .m6 | .m7 | .m8 | .m9 => true
  | .idle | .m1 | .m2 | .m3 | .m4 | .l1 | .l2 => false

/-- The steps after the raw pressure has been read, M8 and M9 (R48(d)). -/
def rawPressureKnown : Seq → Bool
  | .m8 | .m9 => true
  | .idle | .m1 | .m2 | .m3 | .m4 | .m5 | .m6 | .m7 | .l1 | .l2 => false

/-- The events of an instance at bus address `dev`: the transactions T1 to T5 and the delays, with no other address,
length or control value (R62, R63, R70, R141). -/
def AllowedEvent (dev : BitVec 7) : Event → Prop
  | .rd d addr n answer =>
    d = dev ∧ ((addr = 0xAA ∧ n = 22) ∨ (addr = 0xF6 ∧ (n = 2 ∨ n = 3))) ∧ ∀ b, answer = some b → b.length = n
  | .wr d addr v _ => d = dev ∧ addr = 0xF4 ∧ (v = 0x2E ∨ v = 0x34 ∨ v = 0x74 ∨ v = 0xB4 ∨ v = 0xF4)
  | .dly ms => ms = 5 ∨ ms = 8 ∨ ms = 14 ∨ ms = 26

/-- The responses the CORE emits: VALUE is 0 unless VALID = 1, VALID = 1 only with OK, and STEP is a step where the
error can be raised (R93, R230). -/
def AllowedResponse (p : Params) (r : Response) : Prop :=
  (r.valid = false → r.value = 0) ∧ (r.status ≠ .ok → r.valid = false) ∧
  match r.status with
  | .ok | .notCalibrated | .illegalCommand => r.step = .idle
  | .busError => r.step = .l1 ∨ r.step = .m1 ∨ r.step = .m3 ∨ r.step = .m5 ∨ r.step = .m7
  | .calibrationInvalid => r.step = .l2 ∧ p.calSentinelCheck = true
  | .arithFault => r.step = .m4 ∨ r.step = .m8

/-- Every register that the coming step can read has been written since reset: the check of I12 for R46's model fault.
The getters read a result only with RES_VALID = 1, and only in the step that takes their word. -/
structure ReadsWrittenRegisters (s : State) : Prop where
  atL2 : s.seq = .l2 → ∀ i : Fin 22, s.buf[i] ≠ none
  atM4 : s.seq = .m4 → s.ut ≠ none ∧ s.cal ≠ none
  atM8 : s.seq = .m8 → s.up ≠ none ∧ s.b5 ≠ none ∧ s.cal ≠ none
  atM9 : s.seq = .m9 → s.tStage ≠ none ∧ s.pHandoff ≠ none
  atGetT : TakesWord s 0x40 → s.resValid = true → s.resT10 ≠ none
  atGetP : TakesWord s 0x50 → s.resValid = true → s.resP ≠ none

/-- The invariant of R48, with the register contents it speaks of. -/
structure Inv (s : State) : Prop where
  /-- R48(a): a valid store is written, and written whole. -/
  calWritten : s.calValid = true → s.cal.isSome = true
  /-- R48(b): a cycle runs only with a valid store. -/
  cycleCalibrated : s.seq.measuring = true → s.calValid = true
  /-- R43: CMD holds the word of the command in progress, and nothing else. -/
  cmdOfSeq : s.cmd = commandAt s.seq
  /-- L2 finds all 22 bytes of BUF written (R46). -/
  blockRead : s.seq = .l2 → ∀ i : Fin 22, s.buf[i].isSome = true
  /-- M4 finds UT written (R46). -/
  rawTemperature : s.seq = .m4 → s.ut.isSome = true
  /-- R48(c): from M5 on, T_STAGE and B5 are what M4 computed from the UT of this cycle. -/
  temperature : temperatureKnown s.seq = true →
    ∃ words ut t b5, s.cal = some words ∧ s.ut = some ut ∧ compT words ut = some (t, b5) ∧
      s.tStage = some t ∧ s.b5 = some b5
  /-- R48(d), R148: at M8 and M9 the UP of this cycle is written and in range. -/
  rawPressure : rawPressureKnown s.seq = true → ∃ up, s.up = some up ∧ up.toNat < 2 ^ upBits s.oss
  /-- R48(d): at M9 the pressure handed over is what M8 computed, with the OSS of this cycle (R48(f)). -/
  pressure : s.seq = .m9 →
    ∃ words up b5 p, s.cal = some words ∧ s.up = some up ∧ s.b5 = some b5 ∧
      compP words up b5 s.oss = some p ∧ s.pHandoff = some p
  /-- R42: the pressure is handed to M9 and kept nowhere else. -/
  noPressureElsewhere : s.seq ≠ .m9 → s.pHandoff = none
  /-- R48(e): a valid result has both halves written. -/
  resultsWritten : s.resValid = true → s.resT10.isSome = true ∧ s.resP.isSome = true
  /-- R63, R70: nothing but the listed transactions and delays. -/
  traceAllowed : ∀ e ∈ s.trace, AllowedEvent s.params.devAddr e
  /-- R230: nothing but the listed responses. -/
  responsesAllowed : ∀ r ∈ s.responses, AllowedResponse s.params r

end Sys2Proof.Safety
end

