-- ==== Sys2Proof/Certificates/Slice0/Obligations.lean ====
section
/-! DEFINITION. The statements about the model, each with the rule of spec/ it comes from. -/

open Sys2Proof Sys2Proof.Machine Sys2Proof.Safety

/-! Encoding (30_encoding.md). -/

/-- The words of E1 and the bytes of E3, as R91 and R97 encode them. -/
def Obligations.SampleWordsDecode : Prop :=
  decode .host 0x10 = .ok .begin ∧ decode .host 0x20 = .ok .measure ∧
  decode .host 0x30 = .ok (.config 0) ∧ decode .host 0x33 = .ok (.config 3) ∧
  decode .host 0x40 = .ok .getT ∧ decode .host 0x50 = .ok .getP ∧
  decode .bus 0x2E = .ok .startT ∧ decode .bus 0x34 = .ok (.startP 0) ∧ decode .bus 0x74 = .ok (.startP 1) ∧
  decode .bus 0xB4 = .ok (.startP 2) ∧ decode .bus 0xF4 = .ok (.startP 3)

/-- R91, R97: on each port decoding undoes encoding for the instructions that may stand there, gives nothing for the
others, and accepts no other byte. -/
def Obligations.DecodeAndEncodeAgree : Prop :=
  ∀ (p : Port) (i : Instr),
    (i.wellFormed p = true → decode p (encode i) = .ok i) ∧
    (i.wellFormed p = false → ∃ e, decode p (encode i) = .error e) ∧
    ∀ w : Byte, decode p w = .ok i → i.wellFormed p = true ∧ encode i = w

/-- R95: a host word is illegal exactly if OP is not in 1..5, or RSV is not 0, or OP is not 3 and OPD is not 0. -/
def Obligations.IllegalWordsExactly : Prop :=
  ∀ w : Byte, (∃ e, decode .host w = .error e) ↔
    (w.extractLsb' 4 4 = 0 ∨ 6 ≤ (w.extractLsb' 4 4).toNat ∨ w.extractLsb' 2 2 ≠ 0 ∨
      (w.extractLsb' 4 4 ≠ 3 ∧ w.extractLsb' 0 2 ≠ 0))

/-- R95: an illegal word is accepted and answered with ILLEGAL_COMMAND, and nothing else changes. (What CMD holds after
a response is left open in the statements that bind it as `c`; the invariant says it.) -/
def Obligations.IllegalWordOnlyAnswers : Prop :=
  ∀ (s : State) (w : Byte) (rest : List HostMove),
    s.seq = .idle → s.hostPort = .command w :: rest →
    (w.extractLsb' 4 4 = 0 ∨ 6 ≤ (w.extractLsb' 4 4).toNat ∨ w.extractLsb' 2 2 ≠ 0 ∨
      (w.extractLsb' 4 4 ≠ 3 ∧ w.extractLsb' 0 2 ≠ 0)) →
    ∃ c, step s = .next { s with
      hostPort := rest, cmd := c,
      responses := s.responses ++ [{ status := .illegalCommand, step := .idle, valid := false, value := 0 }] }

/-- R93, R94, R36: the fields of the 73-bit response word, and the codes in them. -/
def Obligations.ResponseWordFields : Prop :=
  (∀ r : Response,
    r.word.extractLsb' 0 4 = r.status.code ∧ r.word.extractLsb' 4 4 = r.step.code ∧
    r.word.extractLsb' 8 1 = BitVec.ofBool r.valid ∧ r.word.extractLsb' 9 64 = r.value) ∧
  [Status.ok, .notCalibrated, .busError, .calibrationInvalid, .arithFault, .illegalCommand].map Status.code
    = [0, 1, 2, 3, 4, 5] ∧
  [Seq.idle, .m1, .m2, .m3, .m4, .m5, .m6, .m7, .m8, .m9, .l1, .l2].map Seq.code
    = [0x0, 0x1, 0x2, 0x3, 0x4, 0x5, 0x6, 0x7, 0x8, 0x9, 0xA, 0xB]

/-- R99: the line of a host command assembles to its word, and only host commands have a line. -/
def Obligations.AssemblerEmitsWords : Prop :=
  ∀ i : Instr,
    (i.wellFormed .host = true → ∃ line, lineOf i = some line ∧ assemble [line] = some [encode i]) ∧
    (i.wellFormed .host = false → lineOf i = none)

/-! What a step runs (30_encoding.md R92, 10_state.md R36). -/

/-- A step runs the instruction that is found: the oldest pending word of the ready host port, or the sequencer's own.
With nothing pending the idle CORE waits (entry 5 of the assumption log). -/
def Obligations.StepRunsTheInstruction : Prop :=
  ∀ s : State,
    (∀ w rest i, s.seq = .idle → s.hostPort = .command w :: rest → decode .host w = .ok i →
      step s = exec i { s with hostPort := rest }) ∧
    (s.seq = .idle → s.hostPort = [] → step s = .next s) ∧
    (s.seq.loading = true → step s = exec .begin s) ∧
    (s.seq = .m1 → step s = exec .startT s) ∧
    (s.seq = .m5 → step s = exec (.startP s.oss) s) ∧
    (s.seq.measuring = true → s.seq ≠ .m1 → s.seq ≠ .m5 → step s = exec .measure s)

/-- R92: while the port is not ready, no pending move is taken, lost or reordered. -/
def Obligations.BusyPortHoldsMoves : Prop :=
  ∀ s t : State, s.seq ≠ .idle → step s = .next t → t.hostPort = s.hostPort

/-- R92: a host command handed to a CORE that is running another step is held behind the pending moves, and nothing
else happens. The place behind them is entry 10 of the assumption log. -/
def Obligations.BusyCommandIsHeld : Prop :=
  ∀ (s : State) (i : Instr), i.wellFormed .host = true → s.seq ≠ .idle →
    ¬ (i = .begin ∧ s.seq.loading = true) → ¬ (i = .measure ∧ s.seq.measuring = true) →
    exec i s = .next { s with hostPort := s.hostPort ++ [.command (encode i)] }

/-- R36: within a command the sequencer goes to the next step or to IDLE. -/
def Obligations.SequencerOrderIsFixed : Prop :=
  ∀ s t : State, s.seq ≠ .idle → step s = .next t → t.seq = .idle ∨ successor s.seq = some t.seq

/-- R37: STATE is a view of SEQ and CAL_VALID, line by line; R37 gives no line for M9 with CAL_VALID = 0, and neither
does this. -/
def Obligations.StateIsAView : Prop :=
  ∀ s : State,
    (s.seq = .idle ∨ s.seq.loading = true → s.calValid = false → s.phase = .uninitialized) ∧
    (s.seq = .idle ∨ s.seq.loading = true ∨ s.seq = .m9 → s.calValid = true → s.phase = .calibrated) ∧
    (s.seq = .m1 ∨ s.seq = .m2 ∨ s.seq = .m3 ∨ s.seq = .m4 → s.phase = .measuringTemperature) ∧
    (s.seq = .m5 ∨ s.seq = .m6 ∨ s.seq = .m7 ∨ s.seq = .m8 → s.phase = .measuringPressure)

/-! Reset (70_reset_and_hazards.md). -/

/-- R47: construction leaves every piece of CORE state at its reset value, for all parameters. -/
def Obligations.ConstructionResetsCoreState : Prop :=
  ∀ p : Params, let s := State.construct p
    s.cal = none ∧ s.calValid = false ∧ s.oss = p.ossInit ∧ s.seq = .idle ∧
    (∀ i : Fin 22, s.buf[i] = none) ∧ s.ut = none ∧ s.up = none ∧ s.b5 = none ∧ s.tStage = none ∧
    s.resT10 = none ∧ s.resP = none ∧ s.resValid = false ∧ s.cmd = none

/-- R6: the machine after reset is construction with the defaults of the parameters table. That `State.reset` takes the
defaults is entry 7 of the assumption log. -/
def Obligations.ResetTakesDefaultParameters : Prop :=
  State.reset = State.construct { devAddr := 0x77, ossInit := 0, calSentinelCheck := false }

/-- R262: a second reset discards all CORE state. That the further moves and answers stay, and that the trace and the
responses begin anew, is entry 6 of the assumption log. -/
def Obligations.SecondResetDiscardsState : Prop :=
  ∀ (s : State) (p : Params) (rest : List HostMove),
    s.seq = .idle → s.hostPort = .construct p :: rest →
    step s = .next { State.construct p with hostPort := rest, busIn := s.busIn, busDraws := s.busDraws }

/-! The bus (20_memory.md). -/

/-- R66: the three outcomes of a read. A read succeeds if the transport returns no error and n bytes, and then
BUF[0..n-1] holds the bytes; otherwise it fails. Either way one event is recorded. What BUF holds past the bytes
received is entry 3 of the assumption log. -/
def Obligations.ReadHasThreeOutcomes : Prop :=
  ∀ (addr : Byte) (n : Nat) (s : State), n ≤ 22 →
    let a := nextAnswer s
    let r := memRead addr n s
    ((a.busError = false ∧ a.bytesRead = n) →
      r.1 = some a.bytes ∧ (∀ i : Fin 22, r.2.buf[i] = if i.val < n then some a.bytes[i] else s.buf[i]) ∧
      r.2.trace = s.trace ++ [.rd s.params.devAddr addr n (some (a.bytes.toList.take n))]) ∧
    (¬ (a.busError = false ∧ a.bytesRead = n) →
      r.1 = none ∧ r.2.trace = s.trace ++ [.rd s.params.devAddr addr n none]) ∧
    { r.2 with buf := s.buf, trace := s.trace } = s.takeAnswer

/-- R67: a write sends the register address and then the data byte; it fails exactly if the transport returns an
error. One event is recorded. -/
def Obligations.WriteSendsAddressThenData : Prop :=
  ∀ (addr v : Byte) (s : State), ∃ e : Event,
    memWrite addr v s = (!(nextAnswer s).busError, { s.takeAnswer with trace := s.trace ++ [e] }) ∧
    e = .wr s.params.devAddr addr v (!(nextAnswer s).busError) ∧ e.bytesSent = [addr, v]

/-- R70, R63, R73: a step issues at most one event, and only the transaction or delay of its own step. -/
def Obligations.EachStepIssuesItsOwnEvent : Prop :=
  ∀ s t : State, ¬ TakesConstruction s → step s = .next t →
    t.trace = s.trace ∨ ∃ e, t.trace = s.trace ++ [e] ∧ EventAt s.seq s.params.devAddr s.oss e

/-- R61: `DEV_ADDR` and the other parameters are constant for the life of an instance. -/
def Obligations.ParametersAreConstant : Prop :=
  ∀ s t : State, ¬ TakesConstruction s → step s = .next t → t.params = s.params

/-! The calibration store (40_calibration_store.md). -/

/-- R32: the typed views. AC4, AC5 and AC6 read the word as unsigned, the others as two's complement. -/
def Obligations.TypedViewsExtendByType : Prop :=
  ∀ words : CalWords,
    (calAC1 words).toInt = (words[0]).toInt ∧ (calAC2 words).toInt = (words[1]).toInt ∧
    (calAC3 words).toInt = (words[2]).toInt ∧ (calAC4 words).toInt = (words[3]).toNat ∧
    (calAC5 words).toInt = (words[4]).toNat ∧ (calAC6 words).toInt = (words[5]).toNat ∧
    (calB1 words).toInt = (words[6]).toInt ∧ (calB2 words).toInt = (words[7]).toInt ∧
    (calMB words).toInt = (words[8]).toInt ∧ (calMC words).toInt = (words[9]).toInt ∧
    (calMD words).toInt = (words[10]).toInt

/-- R110, R111: `load` gives the 11 big-endian words; with the sentinel check it fails exactly if a word is 0x0000 or
0xFFFF, with the lowest such index, and without the check it never fails. -/
def Obligations.LoadDecodesAndChecks : Prop :=
  ∀ raw : Vector Byte 22,
    let word : Fin 11 → Nat := fun i =>
      256 * (raw[2 * i.val]'(by omega)).toNat + (raw[2 * i.val + 1]'(by omega)).toNat
    (∀ check words, load check raw = .ok words → ∀ i : Fin 11, (words[i]).toNat = word i) ∧
    (∃ words, load false raw = .ok words) ∧
    (∀ k : Nat, load true raw = .error k ↔
      ∃ h : k < 11, (word ⟨k, h⟩ = 0x0000 ∨ word ⟨k, h⟩ = 0xFFFF) ∧
        ∀ j : Fin 11, j.val < k → word j ≠ 0x0000 ∧ word j ≠ 0xFFFF)

/-- R112: BEGIN is accepted in every STATE while SEQ = IDLE, and goes to L1. -/
def Obligations.BeginIsAccepted : Prop :=
  ∀ s : State, s.seq = .idle → exec .begin s = .next { s with cmd := some 0x10, seq := .l1 }

/-- R113: L1 reads the block of 22 bytes at 0xAA in one transaction. -/
def Obligations.BeginReadsBlock : Prop :=
  ∀ s : State, s.seq = .l1 →
    let a := nextAnswer s
    ((a.busError = false ∧ a.bytesRead = 22) →
      exec .begin s = .next { s.takeAnswer with
        buf := a.bytes.map some, seq := .l2,
        trace := s.trace ++ [.rd s.params.devAddr 0xAA 22 (some a.bytes.toList)] }) ∧
    (¬ (a.busError = false ∧ a.bytesRead = 22) →
      ∃ anyBytes c, exec .begin s = .next { s.takeAnswer with
        buf := anyBytes, seq := .idle, cmd := c,
        trace := s.trace ++ [.rd s.params.devAddr 0xAA 22 none],
        responses := s.responses ++ [{ status := .busError, step := .l1, valid := false, value := 0 }] })

/-- R114: L2 decodes, checks, and stores all 11 words with CAL_VALID, or raises CALIBRATION_INVALID and stores none. -/
def Obligations.BeginCommitsBlock : Prop :=
  ∀ (s : State) (raw : Vector Byte 22), s.seq = .l2 → (∀ i : Fin 22, s.buf[i] = some raw[i]) →
    (∀ words, load s.params.calSentinelCheck raw = .ok words →
      ∃ c, exec .begin s = .next { s with
        cal := some words, calValid := true, seq := .idle, cmd := c,
        responses := s.responses ++ [{ status := .ok, step := .idle, valid := false, value := 0 }] }) ∧
    (∀ k, load s.params.calSentinelCheck raw = .error k →
      ∃ c, exec .begin s = .next { s with
        seq := .idle, cmd := c,
        responses := s.responses ++ [{ status := .calibrationInvalid, step := .l2, valid := false, value := 0 }] })

/-- R112, R113, R114, R116: the whole BEGIN, three steps from acceptance to the response: the store is loaded, and OSS,
RES_T10, RES_P and RES_VALID are as before. That CMD is empty after the response is entry 9 of the assumption log. -/
def Obligations.BeginRunLoadsStore : Prop :=
  ∀ (s : State) (rest : List HostMove) (words : CalWords),
    let a := nextAnswer s
    s.seq = .idle → s.hostPort = .command 0x10 :: rest → a.busError = false → a.bytesRead = 22 →
    load s.params.calSentinelCheck a.bytes = .ok words →
    Host.Core.run core 3 s = .next { s.takeAnswer with
      hostPort := rest, cal := some words, calValid := true, buf := a.bytes.map some, seq := .idle, cmd := none,
      trace := s.trace ++ [.rd s.params.devAddr 0xAA 22 (some a.bytes.toList)],
      responses := s.responses ++ [{ status := .ok, step := .idle, valid := false, value := 0 }] }

/-- R115: a BEGIN that fails, run from acceptance to its response, changes no state except BUF, and STATE is as
before. -/
def Obligations.FailedBeginKeepsState : Prop :=
  ∀ (s t : State) (r : Response), s.seq = .idle → s.hostPort = [.command 0x10] →
    Host.Core.run core 3 s = .next t → t.responses = s.responses ++ [r] → r.status ≠ .ok →
    t.cal = s.cal ∧ t.calValid = s.calValid ∧ t.oss = s.oss ∧ t.resT10 = s.resT10 ∧ t.resP = s.resP ∧
    t.resValid = s.resValid ∧ t.ut = s.ut ∧ t.up = s.up ∧ t.b5 = s.b5 ∧ t.tStage = s.tStage ∧
    t.pHandoff = s.pHandoff ∧ t.params = s.params ∧ t.seq = .idle ∧ t.phase = s.phase

/-- R117: outside L2 of BEGIN no step writes CAL; no error writes it; and no step clears CAL_VALID. -/
def Obligations.StoreChangesOnlyAtL2 : Prop :=
  ∀ s t : State, ¬ TakesConstruction s → step s = .next t →
    (s.seq ≠ .l2 → t.cal = s.cal ∧ t.calValid = s.calValid) ∧
    (∀ r, t.responses = s.responses ++ [r] → r.status ≠ .ok → t.cal = s.cal ∧ t.calValid = s.calValid) ∧
    (s.calValid = true → t.calValid = true)

/-! The measurement sequencer (41_measurement_sequencer.md). -/

/-- R131: MEASURE with CAL_VALID = 0 answers NOT_CALIBRATED and changes nothing else; with CAL_VALID = 1 it goes to
M1. -/
def Obligations.MeasureAcceptance : Prop :=
  ∀ s : State, s.seq = .idle →
    (s.calValid = false → ∃ c, exec .measure s = .next { s with
      cmd := c,
      responses := s.responses ++ [{ status := .notCalibrated, step := .idle, valid := false, value := 0 }] }) ∧
    (s.calValid = true → exec .measure s = .next { s with cmd := some 0x20, seq := .m1 })

/-- R133: START_T, the command of M1, writes 0x2E to 0xF4 and goes to M2, or raises BUS_ERROR. -/
def Obligations.StartTemperatureConversion : Prop :=
  ∀ s : State, s.seq = .m1 →
    ((nextAnswer s).busError = false →
      exec .startT s = .next { s.takeAnswer with
        seq := .m2, trace := s.trace ++ [.wr s.params.devAddr 0xF4 0x2E true] }) ∧
    ((nextAnswer s).busError = true →
      ∃ c, exec .startT s = .next { s.takeAnswer with
        seq := .idle, cmd := c, trace := s.trace ++ [.wr s.params.devAddr 0xF4 0x2E false],
        responses := s.responses ++ [{ status := .busError, step := .m1, valid := false, value := 0 }] })

/-- R145: START_P(OSS), the command of M5, writes `0x34 + (OSS << 6)` to 0xF4 and goes to M6, or raises BUS_ERROR; and
M5 is reached only from an M4 that has succeeded. -/
def Obligations.StartPressureConversion : Prop :=
  (∀ s : State, s.seq = .m5 →
    let v : Byte := BitVec.ofNat 8 (0x34 + s.oss.toNat * 64)
    ((nextAnswer s).busError = false →
      exec (.startP s.oss) s = .next { s.takeAnswer with
        seq := .m6, trace := s.trace ++ [.wr s.params.devAddr 0xF4 v true] }) ∧
    ((nextAnswer s).busError = true →
      ∃ c, exec (.startP s.oss) s = .next { s.takeAnswer with
        seq := .idle, cmd := c, trace := s.trace ++ [.wr s.params.devAddr 0xF4 v false],
        responses := s.responses ++ [{ status := .busError, step := .m5, valid := false, value := 0 }] })) ∧
  ∀ s t : State, step s = .next t → t.seq = .m5 →
    s.seq = .m4 ∧ ∃ result, compT s.readCAL s.readUT = some result

/-- R134, R146: M2 asks for 5 ms, M6 for 5, 8, 14 or 26 ms by OSS; neither can fail. -/
def Obligations.SettleStepsRequestDelays : Prop :=
  ∀ s : State,
    (s.seq = .m2 → exec .measure s = .next { s with seq := .m3, trace := s.trace ++ [.dly 5] }) ∧
    (s.seq = .m6 → exec .measure s = .next { s with
      seq := .m7,
      trace := s.trace ++ [.dly (if s.oss = 0 then 5 else if s.oss = 1 then 8 else if s.oss = 2 then 14 else 26)] })

/-- R142: the delay does not fall as oss rises, and covers the nominal time. -/
def Obligations.DelaysRiseAndCoverNominal : Prop :=
  ∀ o o' : BitVec 2, (o.toNat ≤ o'.toNat → pressureDelay o ≤ pressureDelay o') ∧
    nominalSettleTenths o ≤ 10 * pressureDelay o

/-- R264, R265: the read of M3 is reached only through the delay of M2, the read of M7 only through the delay of M6, and
the computation of M8 only from a read of this cycle that has succeeded, after M4 and the start write of M5. -/
def Obligations.SettleComesBeforeRead : Prop :=
  ∀ s t : State, step s = .next t →
    (t.seq = .m3 → s.seq = .m2 ∧ t.trace = s.trace ++ [.dly 5]) ∧
    (t.seq = .m7 → s.seq = .m6 ∧ t.trace = s.trace ++ [.dly (pressureDelay s.oss)]) ∧
    (t.seq = .m8 → s.seq = .m7 ∧ readOk 3 (nextAnswer s) = true) ∧
    (t.seq = .m6 → s.seq = .m5) ∧ (t.seq = .m5 → s.seq = .m4)

/-- R135: M3 reads 2 bytes of 0xF6 into UT, most significant byte first, or raises BUS_ERROR. -/
def Obligations.MeasureReadsRawTemperature : Prop :=
  ∀ s : State, s.seq = .m3 →
    let a := nextAnswer s
    ((a.busError = false ∧ a.bytesRead = 2) →
      ∃ (ut : Word16) (buf : Vector (Option Byte) 22),
        ut.toNat = 256 * (a.bytes[0]).toNat + (a.bytes[1]).toNat ∧
        (∀ i : Fin 22, i.val < 2 → buf[i] = some a.bytes[i]) ∧
        exec .measure s = .next { s.takeAnswer with
          ut := some ut, buf := buf, seq := .m4,
          trace := s.trace ++ [.rd s.params.devAddr 0xF6 2 (some [a.bytes[0], a.bytes[1]])] }) ∧
    (¬ (a.busError = false ∧ a.bytesRead = 2) →
      ∃ anyBytes c, exec .measure s = .next { s.takeAnswer with
        buf := anyBytes, seq := .idle, cmd := c,
        trace := s.trace ++ [.rd s.params.devAddr 0xF6 2 none],
        responses := s.responses ++ [{ status := .busError, step := .m3, valid := false, value := 0 }] })

/-- R136: M4 stages T10 in T_STAGE and B5 in B5, or raises ARITH_FAULT. -/
def Obligations.MeasureComputesTemperature : Prop :=
  ∀ (s : State) (ut : Word16) (words : CalWords), s.seq = .m4 → s.ut = some ut → s.cal = some words →
    (∀ t b5, compT words ut = some (t, b5) →
      exec .measure s = .next { s with tStage := some t, b5 := some b5, seq := .m5 }) ∧
    (compT words ut = none →
      ∃ c, exec .measure s = .next { s with
        seq := .idle, cmd := c,
        responses := s.responses ++ [{ status := .arithFault, step := .m4, valid := false, value := 0 }] })

/-- R147: M7 reads 3 bytes of 0xF6, most significant byte first, and writes the value shifted right by `8 - OSS`
to UP, or raises BUS_ERROR. -/
def Obligations.MeasureReadsRawPressure : Prop :=
  ∀ s : State, s.seq = .m7 →
    let a := nextAnswer s
    ((a.busError = false ∧ a.bytesRead = 3) →
      ∃ (up : Word24) (buf : Vector (Option Byte) 22),
        up.toNat =
          (65536 * (a.bytes[0]).toNat + 256 * (a.bytes[1]).toNat + (a.bytes[2]).toNat) / 2 ^ (8 - s.oss.toNat) ∧
        (∀ i : Fin 22, i.val < 3 → buf[i] = some a.bytes[i]) ∧
        exec .measure s = .next { s.takeAnswer with
          up := some up, buf := buf, seq := .m8,
          trace := s.trace ++ [.rd s.params.devAddr 0xF6 3 (some [a.bytes[0], a.bytes[1], a.bytes[2]])] }) ∧
    (¬ (a.busError = false ∧ a.bytesRead = 3) →
      ∃ anyBytes c, exec .measure s = .next { s.takeAnswer with
        buf := anyBytes, seq := .idle, cmd := c,
        trace := s.trace ++ [.rd s.params.devAddr 0xF6 3 none],
        responses := s.responses ++ [{ status := .busError, step := .m7, valid := false, value := 0 }] })

/-- R149: M8 hands the pressure to M9, or raises ARITH_FAULT. The field that carries it is entry 8 of the assumption
log, the empty CMD entry 9. -/
def Obligations.MeasureComputesPressure : Prop :=
  ∀ (s : State) (up : Word24) (b5 : Word64) (words : CalWords),
    s.seq = .m8 → s.up = some up → s.b5 = some b5 → s.cal = some words →
    (∀ p, compP words up b5 s.oss = some p → exec .measure s = .next { s with pHandoff := some p, seq := .m9 }) ∧
    (compP words up b5 s.oss = none →
      exec .measure s = .next { s with
        seq := .idle, cmd := none,
        responses := s.responses ++ [{ status := .arithFault, step := .m8, valid := false, value := 0 }] })

/-- R150: M9 publishes both results with RES_VALID in one step, answers OK and returns to IDLE. The field that carries
the pressure, and that it is emptied here, is entry 8 of the assumption log; the empty CMD is entry 9. -/
def Obligations.MeasurePublishesTogether : Prop :=
  ∀ (s : State) (t p : Word64), s.seq = .m9 → s.tStage = some t → s.pHandoff = some p →
    exec .measure s = .next { s with
      resT10 := some t, resP := some p, resValid := true, pHandoff := none, seq := .idle, cmd := none,
      responses := s.responses ++ [{ status := .ok, step := .idle, valid := false, value := 0 }] }

/-- R130: the whole cycle, ten steps from acceptance to the response, when every transaction succeeds and no divisor is
zero: the trace of R130, and the results of CompT and CompP published. The empty field of the handed pressure and the
empty CMD at the end are entries 8 and 9 of the assumption log, the bytes of BUF past those read entry 3. -/
def Obligations.MeasureCyclePublishesResults : Prop :=
  ∀ (s : State) (rest : List HostMove) (words : CalWords) (t b5 p : Word64),
    let s1 := s.takeAnswer
    let s2 := s1.takeAnswer
    let s3 := s2.takeAnswer
    let temperature := nextAnswer s1
    let pressure := nextAnswer s3
    let ut := bytes16 temperature.bytes[0] temperature.bytes[1]
    let up := normaliseUP (bytes24 pressure.bytes[0] pressure.bytes[1] pressure.bytes[2]) s.oss
    s.seq = .idle → s.hostPort = .command 0x20 :: rest → s.calValid = true → s.cal = some words →
    (nextAnswer s).busError = false →
    temperature.busError = false → temperature.bytesRead = 2 →
    (nextAnswer s2).busError = false →
    pressure.busError = false → pressure.bytesRead = 3 →
    compT words ut = some (t, b5) → compP words up b5 s.oss = some p →
    Host.Core.run core 10 s = .next { s3.takeAnswer with
      hostPort := rest, buf := bufReceive 3 pressure.bytes (bufReceive 2 temperature.bytes s.buf),
      ut := some ut, up := some up, b5 := some b5, tStage := some t, pHandoff := none,
      resT10 := some t, resP := some p, resValid := true, seq := .idle, cmd := none,
      trace := s.trace ++ [
        .wr s.params.devAddr 0xF4 0x2E true,
        .dly 5,
        .rd s.params.devAddr 0xF6 2 (some (temperature.bytes.toList.take 2)),
        .wr s.params.devAddr 0xF4 (0x34 + (s.oss.setWidth 8 <<< 6)) true,
        .dly (pressureDelay s.oss),
        .rd s.params.devAddr 0xF6 3 (some (pressure.bytes.toList.take 3))],
      responses := s.responses ++ [{ status := .ok, step := .idle, valid := false, value := 0 }] }

/-- R152: two MEASURE commands with the same CAL and OSS, whose four transactions end alike and whose reads at M3 and M7
give the same raw bytes, answer the same, and if they answer OK publish the same RES_T10 and RES_P, whatever else the
two states hold. If they answer an error, neither publishes. -/
def Obligations.MeasureDependsOnlyOnItsInputs : Prop :=
  ∀ (s s' : State) (words : CalWords),
    let s2 := s.takeAnswer.takeAnswer
    let s2' := s'.takeAnswer.takeAnswer
    let temperature := nextAnswer s.takeAnswer
    let temperature' := nextAnswer s'.takeAnswer
    let pressure := nextAnswer s2.takeAnswer
    let pressure' := nextAnswer s2'.takeAnswer
    s.seq = .idle → s'.seq = .idle → s.hostPort = [.command 0x20] → s'.hostPort = [.command 0x20] →
    s.calValid = true → s'.calValid = true → s.cal = some words → s'.cal = some words → s.oss = s'.oss →
    (nextAnswer s).busError = (nextAnswer s').busError → readOk 2 temperature = readOk 2 temperature' →
    temperature.bytes[0] = temperature'.bytes[0] → temperature.bytes[1] = temperature'.bytes[1] →
    (nextAnswer s2).busError = (nextAnswer s2').busError → readOk 3 pressure = readOk 3 pressure' →
    pressure.bytes[0] = pressure'.bytes[0] → pressure.bytes[1] = pressure'.bytes[1] →
    pressure.bytes[2] = pressure'.bytes[2] →
    ∃ (t t' : State) (r : Response), Host.Core.run core 10 s = .next t ∧ Host.Core.run core 10 s' = .next t' ∧
      t.responses = s.responses ++ [r] ∧ t'.responses = s'.responses ++ [r] ∧
      (r.status = .ok → t.resT10.isSome = true ∧ t.resP.isSome = true ∧ t.resValid = true ∧ t'.resValid = true ∧
        t.resT10 = t'.resT10 ∧ t.resP = t'.resP) ∧
      (r.status ≠ .ok → t.resT10 = s.resT10 ∧ t.resP = s.resP ∧ t.resValid = s.resValid ∧
        t'.resT10 = s'.resT10 ∧ t'.resP = s'.resP ∧ t'.resValid = s'.resValid)

/-- R155: CONFIG sets OSS in every STATE while SEQ = IDLE, and answers OK. The empty CMD is entry 9 of the assumption
log. -/
def Obligations.ConfigSetsOss : Prop :=
  ∀ (s : State) (oss : BitVec 2), s.seq = .idle →
    exec (.config oss) s = .next { s with
      oss := oss, cmd := none,
      responses := s.responses ++ [{ status := .ok, step := .idle, valid := false, value := 0 }] }

/-- R34, R266, R48(f): a step that changes OSS takes a CONFIG word, or a construction, from the idle host port; no step
of a cycle changes it. -/
def Obligations.OssChangesOnlyByConfig : Prop :=
  ∀ s t : State, ¬ TakesConstruction s → step s = .next t →
    t.oss = s.oss ∨ ∃ oss : BitVec 2, TakesWord s (0x30 + oss.setWidth 8) ∧ t.oss = oss

/-- R41: a step other than M9 leaves RES_T10, RES_P and RES_VALID as they were. -/
def Obligations.ResultsChangeOnlyAtPublish : Prop :=
  ∀ s t : State, ¬ TakesConstruction s → s.seq ≠ .m9 → step s = .next t →
    t.resT10 = s.resT10 ∧ t.resP = s.resP ∧ t.resValid = s.resValid

/-! Temperature compensation (42_temperature_compensation.md). -/

/-- R170 to R174, R176: CompT is the exact integer formula for every calibration and every UT, with ARITH_FAULT exactly
on a zero divisor, and with the ranges of R173 and R174. -/
def Obligations.TemperatureFormulaIsExact : Prop :=
  ∀ (words : CalWords) (ut : Word16),
    let ac5 : Int := (words[4]).toNat
    let ac6 : Int := (words[5]).toNat
    let mc : Int := (words[9]).toInt
    let md : Int := (words[10]).toInt
    let x1 : Int := ((ut.toNat : Int) - ac6) * ac5 / 32768
    let b : Int := x1 + Int.tdiv (mc * 2048) (x1 + md)
    (x1 + md = 0 → compT words ut = none) ∧
    (x1 + md ≠ 0 → ∃ t b5 : Word64, compT words ut = some (t, b5) ∧ b5.toInt = b ∧ t.toInt = (b + 8) / 16 ∧
      -67239933 ≤ b ∧ b ≤ 67239932 ∧ -4202496 ≤ t.toInt ∧ t.toInt ≤ 4202496)

/-! Pressure compensation (43_pressure_compensation.md). -/

/-- R191 to R201, R206: up to the branch, CompP is the exact integer formula for every input the CORE can present, with
ARITH_FAULT exactly if B4 = 0; only the final correction is left. -/
def Obligations.PressureFormulaIsExact : Prop :=
  ∀ (words : CalWords) (up : Word24) (b5 : Word64) (oss : BitVec 2),
    -67239933 ≤ b5.toInt → b5.toInt ≤ 67239932 → up.toNat < 2 ^ (16 + oss.toNat) →
    let ac1 : Int := (words[0]).toInt
    let ac2 : Int := (words[1]).toInt
    let ac3 : Int := (words[2]).toInt
    let ac4 : Int := (words[3]).toNat
    let b1 : Int := (words[6]).toInt
    let b2 : Int := (words[7]).toInt
    let b6 : Int := b5.toInt - 4000
    let square : Int := b6 * b6 / 4096
    let x3 : Int := b2 * square / 2048 + ac2 * b6 / 2048
    let b3 : Int := ((ac1 * 4 + x3) * 2 ^ oss.toNat + 2) / 4
    let y3 : Int := (ac3 * b6 / 8192 + b1 * square / 65536 + 2) / 4
    let b4 : Int := ac4 * (y3 + 32768) / 32768
    let b7 : Int := ((up.toNat : Int) - b3) * (50000 / 2 ^ oss.toNat)
    (b4 = 0 → compP words up b5 oss = none) ∧
    (b4 ≠ 0 → ∃ p : Word64, compP words up b5 oss = some (presCorrect p) ∧
      p.toInt = if b7 < 2147483648 then Int.tdiv (b7 * 2) b4 else Int.tdiv b7 b4 * 2)

/-- R202 to R206: the final correction of P is exact inside the window of R206. -/
def Obligations.FinalCorrectionIsExact : Prop :=
  ∀ p : Word64, -55099921 ≤ p.toInt / 256 → p.toInt / 256 ≤ 55099921 →
    (presCorrect p).toInt =
      p.toInt + ((p.toInt / 256) * (p.toInt / 256) * 3038 / 65536 + -7357 * p.toInt / 65536 + 3791) / 16

/-- R206, R203: the product of the square with 3038 is exact if and only if P >> 8 lies in the window. -/
def Obligations.ExactnessWindow : Prop :=
  ∀ p : Word64,
    (dpMul (dpMul (dpShr p 8) (dpShr p 8)) 3038).toInt = (p.toInt / 256) * (p.toInt / 256) * 3038 ↔
      -55099921 ≤ p.toInt / 256 ∧ p.toInt / 256 ≤ 55099921

/-! The datapath's laws (00_scope.md). -/

/-- R10 to R15: the operations are those of a 64-bit two's-complement machine: wrapping sum, difference, product and
left shift, arithmetic right shift, truncating quotient, signed compare. -/
def Obligations.DatapathIsTwosComplement : Prop :=
  ∀ (a b : Word64) (n : Nat), n ≤ 63 →
    dpAdd a b = a + b ∧ dpSub a b = a - b ∧ dpMul a b = a * b ∧ dpShr a n = a.sshiftRight n ∧ dpShl a n = a <<< n ∧
    dpDiv a b = (if b = 0 then none else some (a.sdiv b)) ∧ dpLt a b = a.slt b

/-- R148: the normalised raw pressure is the value shifted right by `8 - OSS`, and lies below 2^(16+OSS). -/
def Obligations.NormalisedPressureIsBounded : Prop :=
  ∀ (raw24 : Word24) (oss : BitVec 2),
    (normaliseUP raw24 oss).toNat = raw24.toNat / 2 ^ (8 - oss.toNat) ∧
    (normaliseUP raw24 oss).toNat < 2 ^ (16 + oss.toNat)

/-! Result access (44_result_access.md). -/

/-- R220: GET_T, word 0x40, answers RES_T10 with VALID = 1, or the "unavailable" marker, and changes nothing else. -/
def Obligations.GetTemperatureAnswers : Prop :=
  encode .getT = 0x40 ∧
  ∀ s : State, s.seq = .idle →
    (s.resValid = false → ∃ c, exec .getT s = .next { s with
      cmd := c,
      responses := s.responses ++ [{ status := .ok, step := .idle, valid := false, value := 0 }] }) ∧
    (∀ v, s.resValid = true → s.resT10 = some v → ∃ c, exec .getT s = .next { s with
      cmd := c,
      responses := s.responses ++ [{ status := .ok, step := .idle, valid := true, value := v }] })

/-- R221: GET_P, word 0x50, answers RES_P with VALID = 1, or the "unavailable" marker, and changes nothing else. -/
def Obligations.GetPressureAnswers : Prop :=
  encode .getP = 0x50 ∧
  ∀ s : State, s.seq = .idle →
    (s.resValid = false → ∃ c, exec .getP s = .next { s with
      cmd := c,
      responses := s.responses ++ [{ status := .ok, step := .idle, valid := false, value := 0 }] }) ∧
    (∀ v, s.resValid = true → s.resP = some v → ∃ c, exec .getP s = .next { s with
      cmd := c,
      responses := s.responses ++ [{ status := .ok, step := .idle, valid := true, value := v }] })

/-! Errors (60_exceptions.md). -/

/-- R234, R151: a step that answers with an error ends the command at SEQ = IDLE, with STEP the step that raised it,
and leaves CAL, CAL_VALID, OSS, the results and every latch but BUF as they were. The empty CMD is entry 9 of the
assumption log. -/
def Obligations.AbortIsPrecise : Prop :=
  ∀ (s t : State) (r : Response), step s = .next t → t.responses = s.responses ++ [r] → r.status ≠ .ok →
    r.step = s.seq ∧ r.valid = false ∧ r.value = 0 ∧ t.seq = .idle ∧ t.cmd = none ∧
    t.cal = s.cal ∧ t.calValid = s.calValid ∧ t.oss = s.oss ∧
    t.resT10 = s.resT10 ∧ t.resP = s.resP ∧ t.resValid = s.resValid ∧
    t.ut = s.ut ∧ t.up = s.up ∧ t.b5 = s.b5 ∧ t.tStage = s.tStage ∧ t.pHandoff = s.pHandoff ∧ t.params = s.params

/-- R230, R231, R232, R233, R235: where each error is raised, and on what cause: for CALIBRATION_INVALID a word 0x0000 or
0xFFFF with the check on, for ARITH_FAULT a divisor X1 + MD or B4 of 0. -/
def Obligations.ErrorsAreRaisedWhereListed : Prop :=
  ∀ (s t : State) (r : Response), step s = .next t → t.responses = s.responses ++ [r] →
    match r.status with
    | .ok => s.seq = .idle ∨ s.seq = .m9 ∨ s.seq = .l2
    | .notCalibrated => TakesWord s 0x20 ∧ s.calValid = false
    | .busError =>
      ((s.seq = .m1 ∨ s.seq = .m5) ∧ (nextAnswer s).busError = true) ∨
      (s.seq = .l1 ∧ ((nextAnswer s).busError = true ∨ (nextAnswer s).bytesRead ≠ 22)) ∨
      (s.seq = .m3 ∧ ((nextAnswer s).busError = true ∨ (nextAnswer s).bytesRead ≠ 2)) ∨
      (s.seq = .m7 ∧ ((nextAnswer s).busError = true ∨ (nextAnswer s).bytesRead ≠ 3))
    | .calibrationInvalid =>
      s.seq = .l2 ∧ s.params.calSentinelCheck = true ∧
      ∃ k, load true s.readBUF = .error k ∧
        ∃ i : Fin 11, i.val = k ∧ ((blockWords s.readBUF)[i] = 0x0000 ∨ (blockWords s.readBUF)[i] = 0xFFFF)
    | .arithFault =>
      (s.seq = .m4 ∧ compT s.readCAL s.readUT = none ∧ dpAdd (tempX1 s.readCAL s.readUT) (calMD s.readCAL) = 0) ∨
      (s.seq = .m8 ∧ compP s.readCAL s.readUP s.readB5 s.oss = none ∧ presB4 s.readCAL (presB6 s.readB5) = 0)
    | .illegalCommand => ∃ w e, TakesWord s w ∧ decode .host w = .error e

/-- R93, R272, D30: within a command a step emits one response exactly when it ends the command, and none before.
That CMD is empty after it is entry 9 of the assumption log. -/
def Obligations.OneResponseEndsACommand : Prop :=
  ∀ s t : State, s.seq ≠ .idle → step s = .next t →
    (t.seq = .idle ∧ t.cmd = none ∧ ∃ r, t.responses = s.responses ++ [r]) ∨
    (t.seq ≠ .idle ∧ t.cmd = s.cmd ∧ t.responses = s.responses)

/-- R46, R47: what a step reads: the value written to the register, or, if nothing has written it since reset, the free
value that Config names for it; the step then goes on with it. The free value, where R46 speaks of a model fault, is
entry 1 of the assumption log; OnlyWrittenRegistersAreRead says that no reachable state comes to it. -/
def Obligations.UnwrittenReadsGoOn : Prop :=
  ∀ s : State,
    let words := s.cal.getD Config.unwrittenCAL
    let ut := s.ut.getD Config.unwrittenUT
    let up := s.up.getD Config.unwrittenUP
    let b5 := s.b5.getD Config.unwrittenB5
    (s.seq = .l2 → ∀ (raw : Vector Byte 22) (stored : CalWords),
      (∀ i : Fin 22, raw[i] = s.buf[i].getD (Config.unwrittenBUF i)) →
      load s.params.calSentinelCheck raw = .ok stored →
      ∃ t, exec .begin s = .next t ∧ t.cal = some stored ∧ t.calValid = true) ∧
    (s.seq = .m4 → ∀ t10 t5, compT words ut = some (t10, t5) →
      exec .measure s = .next { s with tStage := some t10, b5 := some t5, seq := .m5 }) ∧
    (s.seq = .m8 → ∀ p, compP words up b5 s.oss = some p →
      exec .measure s = .next { s with pHandoff := some p, seq := .m9 }) ∧
    (s.seq = .m9 → ∃ t, exec .measure s = .next t ∧ t.resValid = true ∧
      t.resT10 = some (s.tStage.getD Config.unwrittenTStage) ∧
      t.resP = some (s.pHandoff.getD Config.unwrittenHandoff)) ∧
    (s.seq = .idle → s.resValid = true → ∃ t, exec .getT s = .next t ∧
      t.responses = s.responses ++ [valueResponse (s.resT10.getD Config.unwrittenResT10)]) ∧
    (s.seq = .idle → s.resValid = true → ∃ t, exec .getP s = .next t ∧
      t.responses = s.responses ++ [valueResponse (s.resP.getD Config.unwrittenResP)])

/-! The invariant (10_state.md R48). -/

/-- R48: the invariant holds right after construction, whatever the parameters. -/
def Obligations.InvariantAtReset : Prop := (∀ p : Params, Inv (State.construct p)) ∧ Inv State.reset

/-- R48: every step keeps the invariant. -/
def Obligations.StepKeepsInvariant : Prop := ∀ s t : State, Inv s → step s = .next t → Inv t

/-- R46, I12, R48: in a state that keeps the invariant the coming step reads no register that nothing has written since
reset. -/
def Obligations.OnlyWrittenRegistersAreRead : Prop := ∀ s : State, Inv s → ReadsWrittenRegisters s

/-- R234, R237: the CORE never stops: from every state, reachable or not, step answers a next state. That it does so too
where a register is unwritten is entry 1 of the assumption log. -/
def Obligations.StepNeverStops : Prop := ∀ s : State, ∃ t, step s = .next t

/-- Every instruction answers a next state in every state, whichever is run: that of its effect, of its abort (R234), or,
for a host command at a port that is not ready, the one in which its word is held (R92; entry 10 of the assumption log).
START_T and START_P at a SEQ other than M1 and M5 are entry 11, unwritten registers entry 1. -/
def Obligations.EveryInstructionCompletes : Prop := ∀ (s : State) (i : Instr), ∃ t, exec i s = .next t
end

