-- ==== Sys2Proof/Laws/Datapath.lean ====
section
/-! SUPPORT. The exact value of each datapath operation whose result fits in 64 bits (00_scope.md R10 to R15). -/

namespace Sys2Proof.Machine

open Sys2Proof

/-- `v` fits in 64 bits signed (R10). -/
abbrev Fits64 (v : Int) : Prop := -9223372036854775808 ≤ v ∧ v < 9223372036854775808

theorem toInt_fits (a : Word64) : Fits64 a.toInt := ⟨a.le_toInt, a.toInt_lt⟩

/-- Narrowing a value that fits loses nothing (R10). -/
theorem wrap64_toInt {v : Int} (h : Fits64 v) : (wrap64 v).toInt = v := by
  obtain ⟨h1, h2⟩ := h
  rw [wrap64, BitVec.toInt_ofInt, Int.bmod_def]
  omega

/-- The wrap is the identity on what is already 64 bits wide (R10). -/
theorem wrap64_toInt_self (a : Word64) : wrap64 a.toInt = a := BitVec.ofInt_toInt

theorem dpAdd_toInt {a b : Word64} (h : Fits64 (a.toInt + b.toInt)) : (dpAdd a b).toInt = a.toInt + b.toInt :=
  wrap64_toInt h

theorem dpSub_toInt {a b : Word64} (h : Fits64 (a.toInt - b.toInt)) : (dpSub a b).toInt = a.toInt - b.toInt :=
  wrap64_toInt h

theorem dpMul_toInt {a b : Word64} (h : Fits64 (a.toInt * b.toInt)) : (dpMul a b).toInt = a.toInt * b.toInt :=
  wrap64_toInt h

theorem dpShl_toInt {a : Word64} {n : Nat} (h : Fits64 (a.toInt * 2 ^ n)) : (dpShl a n).toInt = a.toInt * 2 ^ n :=
  wrap64_toInt h

/-- A right shift always fits (R12). -/
theorem dpShr_toInt (a : Word64) (n : Nat) : (dpShr a n).toInt = a.toInt / 2 ^ n := by
  obtain ⟨h1, h2⟩ := toInt_fits a
  have hp : (1 : Int) ≤ 2 ^ n := one_le_pow₀ (by norm_num)
  refine wrap64_toInt ⟨?_, ?_⟩
  · rw [Int.le_ediv_iff_mul_le (by omega)]
    nlinarith
  · rw [Int.ediv_lt_iff_lt_mul (by omega)]
    nlinarith

/-- The quotient of R14, where it fits. -/
theorem dpDiv_of_ne_zero {a b : Word64} (h : b ≠ 0) : dpDiv a b = some (wrap64 (Int.tdiv a.toInt b.toInt)) := if_neg h

@[simp] theorem dpDiv_zero (a : Word64) : dpDiv a 0 = none := if_pos rfl

theorem dpLt_iff (a b : Word64) : dpLt a b = true ↔ a.toInt < b.toInt := by simp [dpLt]

/-- `sext_16` keeps the signed value (R7). -/
@[simp] theorem sext16_toInt (w : Word16) : (sext16 w).toInt = w.toInt := by
  have h1 := w.le_toInt
  have h2 := w.toInt_lt
  exact wrap64_toInt ⟨by omega, by omega⟩

/-- `zext_16` keeps the unsigned value (R7). -/
@[simp] theorem zext16_toInt (w : Word16) : (zext w).toInt = w.toNat := by
  have := w.isLt
  exact wrap64_toInt ⟨by omega, by omega⟩

/-- `zext_24` keeps the unsigned value (R7). -/
@[simp] theorem zext24_toInt (w : Word24) : (zext w).toInt = w.toNat := by
  have := w.isLt
  exact wrap64_toInt ⟨by omega, by omega⟩

end Sys2Proof.Machine
end

