-- ==== Sys2Proof/Laws/State.lean ====
section
/-! SUPPORT. One lemma per field per named update of State. -/

namespace Sys2Proof.Machine

open Sys2Proof

/-! Accepting a command (R92). -/

@[simp] theorem State.accept_cal (w : Byte) (s : State) : (s.accept w).cal = s.cal := rfl
@[simp] theorem State.accept_calValid (w : Byte) (s : State) : (s.accept w).calValid = s.calValid := rfl
@[simp] theorem State.accept_oss (w : Byte) (s : State) : (s.accept w).oss = s.oss := rfl
@[simp] theorem State.accept_seq (w : Byte) (s : State) : (s.accept w).seq = s.seq := rfl
@[simp] theorem State.accept_buf (w : Byte) (s : State) : (s.accept w).buf = s.buf := rfl
@[simp] theorem State.accept_ut (w : Byte) (s : State) : (s.accept w).ut = s.ut := rfl
@[simp] theorem State.accept_up (w : Byte) (s : State) : (s.accept w).up = s.up := rfl
@[simp] theorem State.accept_b5 (w : Byte) (s : State) : (s.accept w).b5 = s.b5 := rfl
@[simp] theorem State.accept_tStage (w : Byte) (s : State) : (s.accept w).tStage = s.tStage := rfl
@[simp] theorem State.accept_resT10 (w : Byte) (s : State) : (s.accept w).resT10 = s.resT10 := rfl
@[simp] theorem State.accept_resP (w : Byte) (s : State) : (s.accept w).resP = s.resP := rfl
@[simp] theorem State.accept_resValid (w : Byte) (s : State) : (s.accept w).resValid = s.resValid := rfl
@[simp] theorem State.accept_cmd (w : Byte) (s : State) : (s.accept w).cmd = some w := rfl
@[simp] theorem State.accept_pHandoff (w : Byte) (s : State) : (s.accept w).pHandoff = s.pHandoff := rfl
@[simp] theorem State.accept_params (w : Byte) (s : State) : (s.accept w).params = s.params := rfl
@[simp] theorem State.accept_hostPort (w : Byte) (s : State) : (s.accept w).hostPort = s.hostPort := rfl
@[simp] theorem State.accept_busIn (w : Byte) (s : State) : (s.accept w).busIn = s.busIn := rfl
@[simp] theorem State.accept_busDraws (w : Byte) (s : State) : (s.accept w).busDraws = s.busDraws := rfl
@[simp] theorem State.accept_trace (w : Byte) (s : State) : (s.accept w).trace = s.trace := rfl
@[simp] theorem State.accept_responses (w : Byte) (s : State) : (s.accept w).responses = s.responses := rfl

/-! Emitting a response (R93). -/

@[simp] theorem State.emit_cal (r : Response) (s : State) : (s.emit r).cal = s.cal := rfl
@[simp] theorem State.emit_calValid (r : Response) (s : State) : (s.emit r).calValid = s.calValid := rfl
@[simp] theorem State.emit_oss (r : Response) (s : State) : (s.emit r).oss = s.oss := rfl
@[simp] theorem State.emit_seq (r : Response) (s : State) : (s.emit r).seq = .idle := rfl
@[simp] theorem State.emit_buf (r : Response) (s : State) : (s.emit r).buf = s.buf := rfl
@[simp] theorem State.emit_ut (r : Response) (s : State) : (s.emit r).ut = s.ut := rfl
@[simp] theorem State.emit_up (r : Response) (s : State) : (s.emit r).up = s.up := rfl
@[simp] theorem State.emit_b5 (r : Response) (s : State) : (s.emit r).b5 = s.b5 := rfl
@[simp] theorem State.emit_tStage (r : Response) (s : State) : (s.emit r).tStage = s.tStage := rfl
@[simp] theorem State.emit_resT10 (r : Response) (s : State) : (s.emit r).resT10 = s.resT10 := rfl
@[simp] theorem State.emit_resP (r : Response) (s : State) : (s.emit r).resP = s.resP := rfl
@[simp] theorem State.emit_resValid (r : Response) (s : State) : (s.emit r).resValid = s.resValid := rfl
@[simp] theorem State.emit_cmd (r : Response) (s : State) : (s.emit r).cmd = none := rfl
@[simp] theorem State.emit_pHandoff (r : Response) (s : State) : (s.emit r).pHandoff = s.pHandoff := rfl
@[simp] theorem State.emit_params (r : Response) (s : State) : (s.emit r).params = s.params := rfl
@[simp] theorem State.emit_hostPort (r : Response) (s : State) : (s.emit r).hostPort = s.hostPort := rfl
@[simp] theorem State.emit_busIn (r : Response) (s : State) : (s.emit r).busIn = s.busIn := rfl
@[simp] theorem State.emit_busDraws (r : Response) (s : State) : (s.emit r).busDraws = s.busDraws := rfl
@[simp] theorem State.emit_trace (r : Response) (s : State) : (s.emit r).trace = s.trace := rfl
@[simp] theorem State.emit_responses (r : Response) (s : State) : (s.emit r).responses = s.responses ++ [r] := rfl

/-! Recording an event (R79). -/

@[simp] theorem State.record_cal (e : Event) (s : State) : (s.record e).cal = s.cal := rfl
@[simp] theorem State.record_calValid (e : Event) (s : State) : (s.record e).calValid = s.calValid := rfl
@[simp] theorem State.record_oss (e : Event) (s : State) : (s.record e).oss = s.oss := rfl
@[simp] theorem State.record_seq (e : Event) (s : State) : (s.record e).seq = s.seq := rfl
@[simp] theorem State.record_buf (e : Event) (s : State) : (s.record e).buf = s.buf := rfl
@[simp] theorem State.record_ut (e : Event) (s : State) : (s.record e).ut = s.ut := rfl
@[simp] theorem State.record_up (e : Event) (s : State) : (s.record e).up = s.up := rfl
@[simp] theorem State.record_b5 (e : Event) (s : State) : (s.record e).b5 = s.b5 := rfl
@[simp] theorem State.record_tStage (e : Event) (s : State) : (s.record e).tStage = s.tStage := rfl
@[simp] theorem State.record_resT10 (e : Event) (s : State) : (s.record e).resT10 = s.resT10 := rfl
@[simp] theorem State.record_resP (e : Event) (s : State) : (s.record e).resP = s.resP := rfl
@[simp] theorem State.record_resValid (e : Event) (s : State) : (s.record e).resValid = s.resValid := rfl
@[simp] theorem State.record_cmd (e : Event) (s : State) : (s.record e).cmd = s.cmd := rfl
@[simp] theorem State.record_pHandoff (e : Event) (s : State) : (s.record e).pHandoff = s.pHandoff := rfl
@[simp] theorem State.record_params (e : Event) (s : State) : (s.record e).params = s.params := rfl
@[simp] theorem State.record_hostPort (e : Event) (s : State) : (s.record e).hostPort = s.hostPort := rfl
@[simp] theorem State.record_busIn (e : Event) (s : State) : (s.record e).busIn = s.busIn := rfl
@[simp] theorem State.record_busDraws (e : Event) (s : State) : (s.record e).busDraws = s.busDraws := rfl
@[simp] theorem State.record_trace (e : Event) (s : State) : (s.record e).trace = s.trace ++ [e] := rfl
@[simp] theorem State.record_responses (e : Event) (s : State) : (s.record e).responses = s.responses := rfl

/-! Holding a host move (R92). -/

@[simp] theorem State.present_cal (m : HostMove) (s : State) : (s.present m).cal = s.cal := rfl
@[simp] theorem State.present_calValid (m : HostMove) (s : State) : (s.present m).calValid = s.calValid := rfl
@[simp] theorem State.present_oss (m : HostMove) (s : State) : (s.present m).oss = s.oss := rfl
@[simp] theorem State.present_seq (m : HostMove) (s : State) : (s.present m).seq = s.seq := rfl
@[simp] theorem State.present_buf (m : HostMove) (s : State) : (s.present m).buf = s.buf := rfl
@[simp] theorem State.present_ut (m : HostMove) (s : State) : (s.present m).ut = s.ut := rfl
@[simp] theorem State.present_up (m : HostMove) (s : State) : (s.present m).up = s.up := rfl
@[simp] theorem State.present_b5 (m : HostMove) (s : State) : (s.present m).b5 = s.b5 := rfl
@[simp] theorem State.present_tStage (m : HostMove) (s : State) : (s.present m).tStage = s.tStage := rfl
@[simp] theorem State.present_resT10 (m : HostMove) (s : State) : (s.present m).resT10 = s.resT10 := rfl
@[simp] theorem State.present_resP (m : HostMove) (s : State) : (s.present m).resP = s.resP := rfl
@[simp] theorem State.present_resValid (m : HostMove) (s : State) : (s.present m).resValid = s.resValid := rfl
@[simp] theorem State.present_cmd (m : HostMove) (s : State) : (s.present m).cmd = s.cmd := rfl
@[simp] theorem State.present_pHandoff (m : HostMove) (s : State) : (s.present m).pHandoff = s.pHandoff := rfl
@[simp] theorem State.present_params (m : HostMove) (s : State) : (s.present m).params = s.params := rfl
@[simp] theorem State.present_hostPort (m : HostMove) (s : State) : (s.present m).hostPort = s.hostPort ++ [m] := rfl
@[simp] theorem State.present_busIn (m : HostMove) (s : State) : (s.present m).busIn = s.busIn := rfl
@[simp] theorem State.present_busDraws (m : HostMove) (s : State) : (s.present m).busDraws = s.busDraws := rfl
@[simp] theorem State.present_trace (m : HostMove) (s : State) : (s.present m).trace = s.trace := rfl
@[simp] theorem State.present_responses (m : HostMove) (s : State) : (s.present m).responses = s.responses := rfl

/-! CAL_VALID (R33). -/

@[simp] theorem State.setCalValid_cal (s : State) : s.setCalValid.cal = s.cal := rfl
@[simp] theorem State.setCalValid_calValid (s : State) : s.setCalValid.calValid = true := rfl
@[simp] theorem State.setCalValid_oss (s : State) : s.setCalValid.oss = s.oss := rfl
@[simp] theorem State.setCalValid_seq (s : State) : s.setCalValid.seq = s.seq := rfl
@[simp] theorem State.setCalValid_buf (s : State) : s.setCalValid.buf = s.buf := rfl
@[simp] theorem State.setCalValid_ut (s : State) : s.setCalValid.ut = s.ut := rfl
@[simp] theorem State.setCalValid_up (s : State) : s.setCalValid.up = s.up := rfl
@[simp] theorem State.setCalValid_b5 (s : State) : s.setCalValid.b5 = s.b5 := rfl
@[simp] theorem State.setCalValid_tStage (s : State) : s.setCalValid.tStage = s.tStage := rfl
@[simp] theorem State.setCalValid_resT10 (s : State) : s.setCalValid.resT10 = s.resT10 := rfl
@[simp] theorem State.setCalValid_resP (s : State) : s.setCalValid.resP = s.resP := rfl
@[simp] theorem State.setCalValid_resValid (s : State) : s.setCalValid.resValid = s.resValid := rfl
@[simp] theorem State.setCalValid_cmd (s : State) : s.setCalValid.cmd = s.cmd := rfl
@[simp] theorem State.setCalValid_pHandoff (s : State) : s.setCalValid.pHandoff = s.pHandoff := rfl
@[simp] theorem State.setCalValid_params (s : State) : s.setCalValid.params = s.params := rfl
@[simp] theorem State.setCalValid_hostPort (s : State) : s.setCalValid.hostPort = s.hostPort := rfl
@[simp] theorem State.setCalValid_busIn (s : State) : s.setCalValid.busIn = s.busIn := rfl
@[simp] theorem State.setCalValid_busDraws (s : State) : s.setCalValid.busDraws = s.busDraws := rfl
@[simp] theorem State.setCalValid_trace (s : State) : s.setCalValid.trace = s.trace := rfl
@[simp] theorem State.setCalValid_responses (s : State) : s.setCalValid.responses = s.responses := rfl

/-! RES_VALID (R41). -/

@[simp] theorem State.setResValid_cal (s : State) : s.setResValid.cal = s.cal := rfl
@[simp] theorem State.setResValid_calValid (s : State) : s.setResValid.calValid = s.calValid := rfl
@[simp] theorem State.setResValid_oss (s : State) : s.setResValid.oss = s.oss := rfl
@[simp] theorem State.setResValid_seq (s : State) : s.setResValid.seq = s.seq := rfl
@[simp] theorem State.setResValid_buf (s : State) : s.setResValid.buf = s.buf := rfl
@[simp] theorem State.setResValid_ut (s : State) : s.setResValid.ut = s.ut := rfl
@[simp] theorem State.setResValid_up (s : State) : s.setResValid.up = s.up := rfl
@[simp] theorem State.setResValid_b5 (s : State) : s.setResValid.b5 = s.b5 := rfl
@[simp] theorem State.setResValid_tStage (s : State) : s.setResValid.tStage = s.tStage := rfl
@[simp] theorem State.setResValid_resT10 (s : State) : s.setResValid.resT10 = s.resT10 := rfl
@[simp] theorem State.setResValid_resP (s : State) : s.setResValid.resP = s.resP := rfl
@[simp] theorem State.setResValid_resValid (s : State) : s.setResValid.resValid = true := rfl
@[simp] theorem State.setResValid_cmd (s : State) : s.setResValid.cmd = s.cmd := rfl
@[simp] theorem State.setResValid_pHandoff (s : State) : s.setResValid.pHandoff = s.pHandoff := rfl
@[simp] theorem State.setResValid_params (s : State) : s.setResValid.params = s.params := rfl
@[simp] theorem State.setResValid_hostPort (s : State) : s.setResValid.hostPort = s.hostPort := rfl
@[simp] theorem State.setResValid_busIn (s : State) : s.setResValid.busIn = s.busIn := rfl
@[simp] theorem State.setResValid_busDraws (s : State) : s.setResValid.busDraws = s.busDraws := rfl
@[simp] theorem State.setResValid_trace (s : State) : s.setResValid.trace = s.trace := rfl
@[simp] theorem State.setResValid_responses (s : State) : s.setResValid.responses = s.responses := rfl

/-! Taking an answer of the transport (R68) touches the answers only. -/

@[simp] theorem State.takeAnswer_cal (s : State) : s.takeAnswer.cal = s.cal := by
  unfold State.takeAnswer; split <;> rfl
@[simp] theorem State.takeAnswer_calValid (s : State) : s.takeAnswer.calValid = s.calValid := by
  unfold State.takeAnswer; split <;> rfl
@[simp] theorem State.takeAnswer_oss (s : State) : s.takeAnswer.oss = s.oss := by
  unfold State.takeAnswer; split <;> rfl
@[simp] theorem State.takeAnswer_seq (s : State) : s.takeAnswer.seq = s.seq := by
  unfold State.takeAnswer; split <;> rfl
@[simp] theorem State.takeAnswer_buf (s : State) : s.takeAnswer.buf = s.buf := by
  unfold State.takeAnswer; split <;> rfl
@[simp] theorem State.takeAnswer_ut (s : State) : s.takeAnswer.ut = s.ut := by
  unfold State.takeAnswer; split <;> rfl
@[simp] theorem State.takeAnswer_up (s : State) : s.takeAnswer.up = s.up := by
  unfold State.takeAnswer; split <;> rfl
@[simp] theorem State.takeAnswer_b5 (s : State) : s.takeAnswer.b5 = s.b5 := by
  unfold State.takeAnswer; split <;> rfl
@[simp] theorem State.takeAnswer_tStage (s : State) : s.takeAnswer.tStage = s.tStage := by
  unfold State.takeAnswer; split <;> rfl
@[simp] theorem State.takeAnswer_resT10 (s : State) : s.takeAnswer.resT10 = s.resT10 := by
  unfold State.takeAnswer; split <;> rfl
@[simp] theorem State.takeAnswer_resP (s : State) : s.takeAnswer.resP = s.resP := by
  unfold State.takeAnswer; split <;> rfl
@[simp] theorem State.takeAnswer_resValid (s : State) : s.takeAnswer.resValid = s.resValid := by
  unfold State.takeAnswer; split <;> rfl
@[simp] theorem State.takeAnswer_cmd (s : State) : s.takeAnswer.cmd = s.cmd := by
  unfold State.takeAnswer; split <;> rfl
@[simp] theorem State.takeAnswer_pHandoff (s : State) : s.takeAnswer.pHandoff = s.pHandoff := by
  unfold State.takeAnswer; split <;> rfl
@[simp] theorem State.takeAnswer_params (s : State) : s.takeAnswer.params = s.params := by
  unfold State.takeAnswer; split <;> rfl
@[simp] theorem State.takeAnswer_hostPort (s : State) : s.takeAnswer.hostPort = s.hostPort := by
  unfold State.takeAnswer; split <;> rfl
@[simp] theorem State.takeAnswer_trace (s : State) : s.takeAnswer.trace = s.trace := by
  unfold State.takeAnswer; split <;> rfl
@[simp] theorem State.takeAnswer_responses (s : State) : s.takeAnswer.responses = s.responses := by
  unfold State.takeAnswer; split <;> rfl
@[simp] theorem State.takeAnswer_busIn (s : State) : s.takeAnswer.busIn = s.busIn.tail := by
  unfold State.takeAnswer; split <;> simp [*]
@[simp] theorem State.takeAnswer_busDraws (s : State) :
    s.takeAnswer.busDraws = if s.busIn = [] then s.busDraws + 1 else s.busDraws := by
  unfold State.takeAnswer; split <;> simp [*]

end Sys2Proof.Machine
end

