-- ==== Sys2Proof/Laws/Ops.lean ====
section
/-! SUPPORT. For each shared operation, what it can do. -/

namespace Sys2Proof.Machine

open Sys2Proof

/-! Reading a register (R46). -/

@[simp] theorem readRegister_some {α : Type} (v unwritten : α) : readRegister (some v) unwritten = v := rfl

@[simp] theorem readRegister_none {α : Type} (unwritten : α) : readRegister none unwritten = unwritten := rfl

theorem State.readCAL_of_some {s : State} {v : CalWords} (h : s.cal = some v) : s.readCAL = v := by simp [readCAL, h]
theorem State.readUT_of_some {s : State} {v : Word16} (h : s.ut = some v) : s.readUT = v := by simp [readUT, h]
theorem State.readUP_of_some {s : State} {v : Word24} (h : s.up = some v) : s.readUP = v := by simp [readUP, h]
theorem State.readB5_of_some {s : State} {v : Word64} (h : s.b5 = some v) : s.readB5 = v := by simp [readB5, h]
theorem State.readTStage_of_some {s : State} {v : Word64} (h : s.tStage = some v) : s.readTStage = v := by
  simp [readTStage, h]
theorem State.readResT10_of_some {s : State} {v : Word64} (h : s.resT10 = some v) : s.readResT10 = v := by
  simp [readResT10, h]
theorem State.readResP_of_some {s : State} {v : Word64} (h : s.resP = some v) : s.readResP = v := by simp [readResP, h]
theorem State.readHandoff_of_some {s : State} {v : Word64} (h : s.pHandoff = some v) : s.readHandoff = v := by
  simp [readHandoff, h]

/-! BUF. -/

theorem State.getElem_readBUF (s : State) (i : Fin 22) :
    s.readBUF[i] = readRegister s.buf[i] (Config.unwrittenBUF i) := by
  simp [readBUF]

/-- BUF written byte by byte reads as the block of those bytes. -/
theorem State.readBUF_of_written {s : State} {raw : Vector Byte 22} (h : ∀ i : Fin 22, s.buf[i] = some raw[i]) :
    s.readBUF = raw := by
  refine Vector.ext fun i hi => ?_
  have hb := s.getElem_readBUF ⟨i, hi⟩
  rw [h ⟨i, hi⟩] at hb
  exact hb

/-- BUF after a read of all 22 bytes. -/
theorem bufReceive_all (bytes : Vector Byte 22) (old : Vector (Option Byte) 22) :
    bufReceive 22 bytes old = bytes.map some := by
  refine Vector.ext fun i hi => ?_
  simp [bufReceive]

theorem State.readBUF_of_map_some {s : State} {raw : Vector Byte 22} (h : s.buf = raw.map some) : s.readBUF = raw :=
  readBUF_of_written fun i => by simp [h]

theorem getElem_bufReceive (n : Nat) (bytes : Vector Byte 22) (old : Vector (Option Byte) 22) (i : Fin 22) :
    (bufReceive n bytes old)[i] = if i.val < n then some bytes[i] else old[i] := by
  simp [bufReceive]

/-! The response and the abort (R93, R234). -/

theorem raiseError_eq (e : Status) (q : Seq) (s : State) : raiseError e q s = s.emit (errorResponse e q) := rfl

/-! The handshake (R92). -/

theorem acceptOrHold_idle {s : State} (h : s.seq = .idle) (i : Instr) (k : State → Host.Outcome State Fault Refusal) :
    acceptOrHold i s k = k (s.accept (encode i)) := by
  simp [acceptOrHold, State.ready, h]

theorem acceptOrHold_busy {s : State} (h : s.seq ≠ .idle) (i : Instr) (k : State → Host.Outcome State Fault Refusal) :
    acceptOrHold i s k = .next (s.present (.command (encode i))) := by
  simp [acceptOrHold, State.ready, h]

/-! The calibration block (R110). -/

/-- Where `load` fails the check is on, and the word at the index reported is one of the two sentinels. -/
theorem load_error {check : Bool} {raw : Vector Byte 22} {k : Nat} (h : load check raw = .error k) :
    check = true ∧ ∃ i : Fin 11, i.val = k ∧ ((blockWords raw)[i] = 0x0000 ∨ (blockWords raw)[i] = 0xFFFF) := by
  cases check with
  | false => simp [load] at h
  | true =>
    cases hf : (blockWords raw).toList.findIdx? isSentinel with
    | none => simp [load, hf] at h
    | some j =>
      simp only [load, if_true, hf, Except.error.injEq] at h
      subst h
      obtain ⟨hj, hs, _⟩ := List.findIdx?_eq_some_iff_getElem.1 hf
      exact ⟨rfl, ⟨j, by simpa using hj⟩, rfl, by simpa [isSentinel] using hs⟩

/-! The bus (R66, R67). -/

theorem readOk_iff (n : Nat) (a : BusAnswer) : readOk n a = true ↔ a.busError = false ∧ a.bytesRead = n := by
  simp [readOk]

theorem readOk_eq_false_iff (n : Nat) (a : BusAnswer) :
    readOk n a = false ↔ a.busError = true ∨ a.bytesRead ≠ n := by
  cases h : a.busError <;> simp [readOk, h]

/-- A read that succeeds (R66(a)). -/
theorem memRead_ok {n : Nat} {s : State} (h : readOk n (nextAnswer s) = true) (addr : Byte) :
    memRead addr n s = (some (nextAnswer s).bytes,
      { s.takeAnswer with
        buf := bufReceive n (nextAnswer s).bytes s.buf,
        trace := s.trace ++ [.rd s.params.devAddr addr n (some ((nextAnswer s).bytes.toList.take n))] }) := by
  simp [memRead, h, State.record, readEvent]

/-- A read that fails (R66(b), (c)). -/
theorem memRead_fail {n : Nat} {s : State} (h : readOk n (nextAnswer s) = false) (addr : Byte) :
    memRead addr n s = (none,
      { s.takeAnswer with
        buf := bufLeftover (nextAnswer s).bytes,
        trace := s.trace ++ [.rd s.params.devAddr addr n none] }) := by
  simp [memRead, h, State.record, readEvent]

/-- A start command that the transport takes (R133, R145). -/
theorem startConversion_ok {s : State} (h : (nextAnswer s).busError = false) (v : Byte) (here after : Seq) :
    startConversion v here after s =
      { s.takeAnswer with seq := after, trace := s.trace ++ [.wr s.params.devAddr controlReg v true] } := by
  simp [startConversion, memWrite, h, State.record]

/-- A start command that fails (R133, R145). -/
theorem startConversion_fail {s : State} (h : (nextAnswer s).busError = true) (v : Byte) (here after : Seq) :
    startConversion v here after s =
      raiseError .busError here
        { s.takeAnswer with trace := s.trace ++ [.wr s.params.devAddr controlReg v false] } := by
  simp [startConversion, memWrite, h, State.record]

/-! The zero divisors (R231). -/

theorem dpDiv_eq_none_iff (a b : Word64) : dpDiv a b = none ↔ b = 0 := by simp [dpDiv]

/-- CompT faults exactly if X1 + MD = 0 (R172). -/
theorem compT_eq_none_iff (words : CalWords) (ut : Word16) :
    compT words ut = none ↔ dpAdd (tempX1 words ut) (calMD words) = 0 := by
  refine Iff.trans (b := tempX2 words (tempX1 words ut) = none) ?_ (dpDiv_eq_none_iff _ _)
  unfold compT
  dsimp only
  split
  · exact iff_of_true rfl ‹_›
  · exact iff_of_false (Option.some_ne_none _) (Option.ne_none_iff_exists'.2 ⟨_, ‹_›⟩)

/-- Both branches of R201 divide by B4. -/
theorem presBranch_eq_none_iff (b7 b4 : Word64) : presBranch b7 b4 = none ↔ b4 = 0 := by
  rw [presBranch, apply_ite (· = none), Option.map_eq_none_iff, dpDiv_eq_none_iff, dpDiv_eq_none_iff, ite_self]

/-- CompP faults exactly if B4 = 0, whichever branch is taken (R201). -/
theorem compP_eq_none_iff (words : CalWords) (up : Word24) (b5 : Word64) (oss : BitVec 2) :
    compP words up b5 oss = none ↔ presB4 words (presB6 b5) = 0 := by
  rw [compP, Option.map_eq_none_iff]
  exact presBranch_eq_none_iff _ _

/-! The delay port (R140). -/

/-- A settle step records its delay and goes to the next step; it cannot fail. -/
theorem settle_eq (ms : Nat) (after : Seq) (s : State) :
    settle ms after s = { s with trace := s.trace ++ [.dly ms], seq := after } := rfl

/-! The accessors (R220, R221). -/

theorem answerResult_unavailable {s : State} (h : s.resValid = false) (v : Word64) :
    answerResult v s = s.emit okResponse := by
  simp [answerResult, h]

theorem answerResult_value {s : State} (h : s.resValid = true) (v : Word64) :
    answerResult v s = s.emit (valueResponse v) := by
  simp [answerResult, h]

end Sys2Proof.Machine
end

