-- ==== Sys2Proof/Laws/PerInstr.lean ====
section
/-! SUPPORT. What holds of every instruction as syntax, one lemma per constructor. -/

namespace Sys2Proof.Laws.TableWord

open Sys2Proof

/-- The word of the instruction, read as the opcode table numbers its bits, is the instruction again; and the
instruction stands on exactly one of the two ports (30_encoding.md R91, R97). -/
def Statement (i : Instr) : Prop :=
  decodeTableWord 8 (encode i).toNat = some i ∧ i.wellFormed .host = !i.wellFormed .bus

theorem begin : Statement .begin := by unfold Statement; decide

theorem measure : Statement .measure := by unfold Statement; decide

theorem config (oss : BitVec 2) : Statement (.config oss) := by
  unfold Statement
  revert oss
  decide

theorem getT : Statement .getT := by unfold Statement; decide

theorem getP : Statement .getP := by unfold Statement; decide

theorem startT : Statement .startT := by unfold Statement; decide

theorem startP (oss : BitVec 2) : Statement (.startP oss) := by
  unfold Statement
  revert oss
  decide

end Sys2Proof.Laws.TableWord
end

