-- ==== Sys2Proof/Laws/Step.lean ====
section
/-! SUPPORT. Everything one step can do, said once: `step_cases`. -/

namespace Sys2Proof.Machine

open Sys2Proof

/-- The state after a transaction of the bus port that recorded `e` (R79). -/
def afterTransaction (e : Event) (s : State) : State := { s.takeAnswer with trace := s.trace ++ [e] }

/-- One step from `s` to `t`, case by case. -/
inductive StepCase (s : State) : State → Prop where
  /-- Idle, no host move pending. -/
  | wait (hq : s.seq = .idle) (hp : s.hostPort = []) : StepCase s s
  /-- A construction (R262). -/
  | construct (p : Params) (rest : List HostMove) (hq : s.seq = .idle) (hp : s.hostPort = .construct p :: rest) :
      StepCase s (reconstruct p { s with hostPort := rest })
  /-- An illegal word (R95). -/
  | illegal (w : Byte) (rest : List HostMove) (e : DecodeError) (hq : s.seq = .idle)
      (hp : s.hostPort = .command w :: rest) (hd : decode .host w = .error e) :
      StepCase s (State.emit (errorResponse .illegalCommand .idle) { s with hostPort := rest })
  /-- BEGIN is accepted (R112). -/
  | acceptBegin (rest : List HostMove) (hq : s.seq = .idle) (hp : s.hostPort = .command 0x10 :: rest) :
      StepCase s { s with hostPort := rest, cmd := some 0x10, seq := .l1 }
  /-- MEASURE is accepted (R131). -/
  | acceptMeasure (rest : List HostMove) (hq : s.seq = .idle) (hp : s.hostPort = .command 0x20 :: rest)
      (hv : s.calValid = true) : StepCase s { s with hostPort := rest, cmd := some 0x20, seq := .m1 }
  /-- MEASURE without a calibration (R131). -/
  | notCalibrated (rest : List HostMove) (hq : s.seq = .idle) (hp : s.hostPort = .command 0x20 :: rest)
      (hv : s.calValid = false) : StepCase s (State.emit (errorResponse .notCalibrated .idle) { s with hostPort := rest })
  /-- CONFIG (R155). -/
  | config (oss : BitVec 2) (rest : List HostMove) (hq : s.seq = .idle)
      (hp : s.hostPort = .command (encode (.config oss)) :: rest) :
      StepCase s (State.emit okResponse { s with hostPort := rest, oss := oss })
  /-- A getter with no result (R220, R221). -/
  | unavailable (w : Byte) (rest : List HostMove) (hq : s.seq = .idle) (hp : s.hostPort = .command w :: rest)
      (hv : s.resValid = false) : StepCase s (State.emit okResponse { s with hostPort := rest })
  /-- A getter with a result (R220, R221). -/
  | answer (w : Byte) (v : Word64) (rest : List HostMove) (hq : s.seq = .idle)
      (hp : s.hostPort = .command w :: rest) (hv : s.resValid = true)
      (hr : (w = 0x40 ∧ v = s.readResT10) ∨ (w = 0x50 ∧ v = s.readResP)) :
      StepCase s (State.emit (valueResponse v) { s with hostPort := rest })
  /-- L1, the read succeeds (R113). -/
  | readBlock (hq : s.seq = .l1) (ha : readOk 22 (nextAnswer s) = true) :
      StepCase s { afterTransaction (.rd s.params.devAddr 0xAA 22 (some (nextAnswer s).bytes.toList)) s with
        buf := (nextAnswer s).bytes.map some, seq := .l2 }
  /-- M3, the read succeeds (R135). -/
  | readTemperature (hq : s.seq = .m3) (ha : readOk 2 (nextAnswer s) = true) :
      StepCase s { afterTransaction (.rd s.params.devAddr 0xF6 2 (some ((nextAnswer s).bytes.toList.take 2))) s with
        buf := bufReceive 2 (nextAnswer s).bytes s.buf,
        ut := some (bytes16 (nextAnswer s).bytes[0] (nextAnswer s).bytes[1]), seq := .m4 }
  /-- M7, the read succeeds (R147). -/
  | readPressure (hq : s.seq = .m7) (ha : readOk 3 (nextAnswer s) = true) :
      StepCase s { afterTransaction (.rd s.params.devAddr 0xF6 3 (some ((nextAnswer s).bytes.toList.take 3))) s with
        buf := bufReceive 3 (nextAnswer s).bytes s.buf,
        up := some (normaliseUP (bytes24 (nextAnswer s).bytes[0] (nextAnswer s).bytes[1] (nextAnswer s).bytes[2]) s.oss),
        seq := .m8 }
  /-- L1, M3 or M7, the read fails (R232). -/
  | readFails (addr : Byte) (n : Nat)
      (hq : (s.seq = .l1 ∧ addr = 0xAA ∧ n = 22) ∨ (s.seq = .m3 ∧ addr = 0xF6 ∧ n = 2) ∨
        (s.seq = .m7 ∧ addr = 0xF6 ∧ n = 3))
      (ha : readOk n (nextAnswer s) = false) :
      StepCase s (State.emit (errorResponse .busError s.seq)
        { afterTransaction (.rd s.params.devAddr addr n none) s with buf := bufLeftover (nextAnswer s).bytes })
  /-- M1 or M5, the write succeeds (R133, R145). -/
  | writeCommand (v : Byte) (after : Seq)
      (hq : (s.seq = .m1 ∧ v = encode .startT ∧ after = .m2) ∨ (s.seq = .m5 ∧ v = encode (.startP s.oss) ∧ after = .m6))
      (ha : (nextAnswer s).busError = false) :
      StepCase s { afterTransaction (.wr s.params.devAddr 0xF4 v true) s with seq := after }
  /-- M1 or M5, the write fails (R232). -/
  | writeFails (v : Byte)
      (hq : (s.seq = .m1 ∧ v = encode .startT) ∨ (s.seq = .m5 ∧ v = encode (.startP s.oss)))
      (ha : (nextAnswer s).busError = true) :
      StepCase s (State.emit (errorResponse .busError s.seq) (afterTransaction (.wr s.params.devAddr 0xF4 v false) s))
  /-- M2 or M6 (R134, R146). -/
  | delay (ms : Nat) (after : Seq)
      (hq : (s.seq = .m2 ∧ ms = 5 ∧ after = .m3) ∨ (s.seq = .m6 ∧ ms = pressureDelay s.oss ∧ after = .m7)) :
      StepCase s { s with trace := s.trace ++ [.dly ms], seq := after }
  /-- L2, the block is stored (R114). -/
  | store (words : CalWords) (hq : s.seq = .l2) (hl : load s.params.calSentinelCheck s.readBUF = .ok words) :
      StepCase s (State.emit okResponse { s with cal := some words, calValid := true })
  /-- L2, the sentinel check fails (R114). -/
  | invalidBlock (k : Nat) (hq : s.seq = .l2) (hl : load s.params.calSentinelCheck s.readBUF = .error k) :
      StepCase s (State.emit (errorResponse .calibrationInvalid .l2) s)
  /-- M4 (R136). -/
  | temperature (t b5 : Word64) (hq : s.seq = .m4) (hr : compT s.readCAL s.readUT = some (t, b5)) :
      StepCase s { s with tStage := some t, b5 := some b5, seq := .m5 }
  /-- M4, zero divisor (R231). -/
  | temperatureFault (hq : s.seq = .m4) (hr : compT s.readCAL s.readUT = none) :
      StepCase s (State.emit (errorResponse .arithFault .m4) s)
  /-- M8 (R149). -/
  | pressure (p : Word64) (hq : s.seq = .m8) (hr : compP s.readCAL s.readUP s.readB5 s.oss = some p) :
      StepCase s { s with pHandoff := some p, seq := .m9 }
  /-- M8, zero divisor (R231). -/
  | pressureFault (hq : s.seq = .m8) (hr : compP s.readCAL s.readUP s.readB5 s.oss = none) :
      StepCase s (State.emit (errorResponse .arithFault .m8) s)
  /-- M9 (R150). -/
  | publish (hq : s.seq = .m9) :
      StepCase s (State.emit okResponse { s with
        resT10 := some s.readTStage, resP := some s.readHandoff, resValid := true, pHandoff := none })

/-- A word that decodes on the host port is the encoding of a host command. -/
theorem decodeHost_cases {w : Byte} {i : Instr} (h : decode .host w = .ok i) :
    encode i = w ∧ (i = .begin ∨ i = .measure ∨ (∃ oss, i = .config oss) ∨ i = .getT ∨ i = .getP) := by
  have key : ∀ w : Byte, (match decodeHost w with
      | .ok i => decide (encode i = w ∧
          (i = .begin ∨ i = .measure ∨ i = .config (opdField w) ∨ i = .getT ∨ i = .getP))
      | .error _ => true) = true := by decide
  have hk := key w
  rw [decode] at h
  simp only [h, decide_eq_true_eq] at hk
  refine ⟨hk.1, ?_⟩
  rcases hk.2 with h2 | h2 | h2 | h2 | h2
  · exact .inl h2
  · exact .inr (.inl h2)
  · exact .inr (.inr (.inl ⟨_, h2⟩))
  · exact .inr (.inr (.inr (.inl h2)))
  · exact .inr (.inr (.inr (.inr h2)))

/-- A step that starts at the ready host port. -/
theorem step_cases_idle {s t : State} (hq : s.seq = .idle) (h : step s = .next t) : StepCase s t := by
  simp only [step, fetch, hq, fetchFromHost] at h
  cases hp : s.hostPort with
  | nil =>
    simp only [hp, Host.Outcome.next.injEq] at h
    exact h ▸ .wait hq hp
  | cons m rest =>
    cases m with
    | construct p =>
      simp only [hp, Host.Outcome.next.injEq] at h
      exact h ▸ .construct p rest hq hp
    | command w =>
      simp only [hp] at h
      cases hd : decode .host w with
      | error e =>
        simp only [hd, Host.Outcome.next.injEq] at h
        exact h ▸ .illegal w rest e hq hp hd
      | ok i =>
        simp only [hd] at h
        obtain ⟨he, hi⟩ := decodeHost_cases hd
        subst he
        rcases hi with rfl | rfl | ⟨oss, rfl⟩ | rfl | rfl
        · simp only [exec, execBegin, acceptOrHold_idle, Host.Outcome.next.injEq] at h
          exact h ▸ .acceptBegin rest hq hp
        · simp only [exec, execMeasure, acceptOrHold_idle, Host.Outcome.next.injEq, Machine.acceptMeasure,
            State.accept_calValid] at h
          cases hv : s.calValid <;> simp only [hv, if_true, Bool.false_eq_true, if_false] at h
          · exact h ▸ hv ▸ .notCalibrated rest hq hp hv
          · exact h ▸ hv ▸ .acceptMeasure rest hq hp hv
        · simp only [exec, execConfig, acceptOrHold_idle, Host.Outcome.next.injEq] at h
          exact h ▸ .config oss rest hq hp
        · simp only [exec, execGetT, acceptOrHold_idle, answerResult, State.accept_resValid] at h
          cases hv : s.resValid <;> simp only [hv, if_true, Bool.false_eq_true, if_false] at h
          · exact Host.Outcome.next.inj h ▸ hv ▸ .unavailable _ rest hq hp hv
          · exact Host.Outcome.next.inj h ▸ hv ▸ .answer _ s.readResT10 rest hq hp hv (.inl ⟨rfl, rfl⟩)
        · simp only [exec, execGetP, acceptOrHold_idle, answerResult, State.accept_resValid] at h
          cases hv : s.resValid <;> simp only [hv, if_true, Bool.false_eq_true, if_false] at h
          · exact Host.Outcome.next.inj h ▸ hv ▸ .unavailable _ rest hq hp hv
          · exact Host.Outcome.next.inj h ▸ hv ▸ .answer _ s.readResP rest hq hp hv (.inr ⟨rfl, rfl⟩)

/-- A step of BEGIN (R112). -/
theorem step_cases_begin {s t : State} (hq : s.seq.loading = true) (h : step s = .next t) : StepCase s t := by
  cases hs : s.seq <;> simp only [hs, Seq.loading, Bool.false_eq_true] at hq
  · simp only [step, fetch, hs, exec, execBegin, Host.Outcome.next.injEq, stepL1] at h
    cases ha : readOk 22 (nextAnswer s) with
    | true =>
      rw [memRead_ok ha] at h
      subst h
      have hc := StepCase.readBlock hs ha
      simpa [afterTransaction, calibrationReg, bufReceive_all, List.take_of_length_le] using hc
    | false =>
      rw [memRead_fail ha] at h
      subst h
      have hc := StepCase.readFails 0xAA 22 (.inl ⟨hs, rfl, rfl⟩) ha
      rw [hs] at hc
      exact hc
  · simp only [step, fetch, hs, exec, execBegin, stepL2, commitBlock, Host.Outcome.next.injEq] at h
    split at h
    · exact h ▸ .invalidBlock _ hs ‹_›
    · exact h ▸ .store _ hs ‹_›

/-- A step of MEASURE (R130). -/
theorem step_cases_measure {s t : State} (hq : s.seq.measuring = true) (h : step s = .next t) : StepCase s t := by
  cases hs : s.seq <;> simp only [hs, Seq.measuring, Bool.false_eq_true] at hq
  case m1 =>
    simp only [step, fetch, hs, exec, execStartT, Host.Outcome.next.injEq, stepM1] at h
    subst h
    cases ha : (nextAnswer s).busError with
    | false => exact startConversion_ok ha .. ▸ .writeCommand _ _ (.inl ⟨hs, rfl, rfl⟩) ha
    | true => exact startConversion_fail ha .. ▸ hs ▸ StepCase.writeFails _ (.inl ⟨hs, rfl⟩) ha
  case m2 =>
    simp only [step, fetch, hs, exec, execMeasure, Host.Outcome.next.injEq] at h
    exact h ▸ .delay 5 .m3 (.inl ⟨hs, rfl, rfl⟩)
  case m3 =>
    simp only [step, fetch, hs, exec, execMeasure, Host.Outcome.next.injEq, stepM3] at h
    cases ha : readOk 2 (nextAnswer s) with
    | true => rw [memRead_ok ha] at h; exact h ▸ .readTemperature hs ha
    | false =>
      rw [memRead_fail ha] at h
      exact h ▸ hs ▸ StepCase.readFails 0xF6 2 (.inr (.inl ⟨hs, rfl, rfl⟩)) ha
  case m4 =>
    simp only [step, fetch, hs, exec, execMeasure, stepM4, Host.Outcome.next.injEq, stageTemperature] at h
    split at h
    · exact h ▸ .temperature _ _ hs ‹_›
    · exact h ▸ .temperatureFault hs ‹_›
  case m5 =>
    simp only [step, fetch, hs, exec, execStartP, Host.Outcome.next.injEq, stepM5] at h
    subst h
    cases ha : (nextAnswer s).busError with
    | false => exact startConversion_ok ha .. ▸ .writeCommand _ _ (.inr ⟨hs, rfl, rfl⟩) ha
    | true => exact startConversion_fail ha .. ▸ hs ▸ StepCase.writeFails _ (.inr ⟨hs, rfl⟩) ha
  case m6 =>
    simp only [step, fetch, hs, exec, execMeasure, Host.Outcome.next.injEq] at h
    exact h ▸ .delay _ .m7 (.inr ⟨hs, rfl, rfl⟩)
  case m7 =>
    simp only [step, fetch, hs, exec, execMeasure, Host.Outcome.next.injEq, stepM7] at h
    cases ha : readOk 3 (nextAnswer s) with
    | true => rw [memRead_ok ha] at h; exact h ▸ .readPressure hs ha
    | false =>
      rw [memRead_fail ha] at h
      exact h ▸ hs ▸ StepCase.readFails 0xF6 3 (.inr (.inr ⟨hs, rfl, rfl⟩)) ha
  case m8 =>
    simp only [step, fetch, hs, exec, execMeasure, stepM8, Host.Outcome.next.injEq, handPressure] at h
    split at h
    · exact h ▸ .pressure _ hs ‹_›
    · exact h ▸ .pressureFault hs ‹_›
  case m9 =>
    simp only [step, fetch, hs, exec, execMeasure, Host.Outcome.next.injEq] at h
    exact h ▸ .publish hs

/-- Whatever a step answers with a next state, it is one of the cases of `StepCase`. -/
theorem step_cases {s t : State} (h : step s = .next t) : StepCase s t := by
  cases hs : s.seq
  case idle => exact step_cases_idle hs h
  case l1 => exact step_cases_begin (by rw [hs]; rfl) h
  case l2 => exact step_cases_begin (by rw [hs]; rfl) h
  all_goals exact step_cases_measure (by rw [hs]; rfl) h

end Sys2Proof.Machine
end

