-- ==== Sys2Proof/Laws/Run.lean ====
section
/-! SUPPORT. Runs of several steps: one step at a time, the transport's answers along a run, and the values of the bytes
read. -/

namespace Sys2Proof.Machine

open Sys2Proof

/-- A run whose first step answers a next state goes on from there. -/
theorem run_succ (k : Nat) (s : State) {t : State} (h : step s = .next t) :
    Host.Core.run core (k + 1) s = Host.Core.run core k t := by
  have hc : core.step s = .next t := h
  simp [Host.Core.run, hc]

/-- The idle CORE with no move pending waits for as long as the run is (R92). -/
theorem run_idle (k : Nat) (s : State) (hq : s.seq = .idle) (hp : s.hostPort = []) :
    Host.Core.run core k s = .next s := by
  induction k with
  | zero => rfl
  | succ k ih => rw [run_succ k s (t := s) (by simp [step, fetch, fetchFromHost, hq, hp])]; exact ih

/-- What the ready port finds when its oldest word is a host command (R92). -/
theorem fetch_command {s : State} {w : Byte} {rest : List HostMove} {i : Instr} (hq : s.seq = .idle)
    (hp : s.hostPort = .command w :: rest) (hd : decode .host w = .ok i) :
    fetch s = .run i { s with hostPort := rest } := by
  simp only [fetch, hq, fetchFromHost, hp, hd]

/-- What the ready port finds when its oldest word is illegal (R95). -/
theorem fetch_illegal {s : State} {w : Byte} {rest : List HostMove} {e : DecodeError} (hq : s.seq = .idle)
    (hp : s.hostPort = .command w :: rest) (hd : decode .host w = .error e) :
    fetch s = .done (illegalCommand w { s with hostPort := rest }) := by
  simp only [fetch, hq, fetchFromHost, hp, hd]

/-- The next answer depends on the transport's two fields only (R68). -/
theorem nextAnswer_congr {s t : State} (hi : s.busIn = t.busIn) (hd : s.busDraws = t.busDraws) :
    nextAnswer s = nextAnswer t := by
  simp [nextAnswer, hi, hd]

/-- The value of a 16-bit word, most significant byte first (R64, R65). -/
theorem bytes16_toNat (hi lo : Byte) : (bytes16 hi lo).toNat = 256 * hi.toNat + lo.toNat := by
  have := hi.isLt
  simp only [bytes16, BitVec.toNat_append]
  rw [← Nat.shiftLeft_add_eq_or_of_lt lo.isLt, Nat.shiftLeft_eq]
  omega

/-- The value of the 24-bit raw pressure, most significant byte first (R65). -/
theorem bytes24_toNat (b0 b1 b2 : Byte) :
    (bytes24 b0 b1 b2).toNat = 65536 * b0.toNat + 256 * b1.toNat + b2.toNat := by
  simp only [bytes24, BitVec.toNat_append]
  rw [← Nat.shiftLeft_add_eq_or_of_lt b1.isLt, ← Nat.shiftLeft_add_eq_or_of_lt b2.isLt, Nat.shiftLeft_eq,
    Nat.shiftLeft_eq]
  omega

/-- The bytes of a 2-byte read. -/
theorem toList_take_two (v : Vector Byte 22) : v.toList.take 2 = [v[0], v[1]] := by
  refine List.ext_getElem (by simp) fun i _ hi => ?_
  match i, hi with
  | 0, _ => simp
  | 1, _ => simp

/-- The bytes of a 3-byte read. -/
theorem toList_take_three (v : Vector Byte 22) : v.toList.take 3 = [v[0], v[1], v[2]] := by
  refine List.ext_getElem (by simp) fun i _ hi => ?_
  match i, hi with
  | 0, _ => simp
  | 1, _ => simp
  | 2, _ => simp

end Sys2Proof.Machine
end

