-- ==== Sys2Proof/Tests/Slice0.lean ====
section
/-! SUPPORT. Tests with expected values from spec/ (95_test_vectors.md unless a comment says otherwise), and for each
obligation with hypotheses a witness that meets them together. -/

namespace Sys2Proof.Tests

open Sys2Proof Sys2Proof.Machine Sys2Proof.Safety

/-! Helpers. -/

/-- The state a next-state outcome carries. -/
def stateOf (o : Host.Outcome State Fault Refusal) : Option State :=
  match o with
  | .next t => some t
  | .fault _ => none
  | .refused _ => none

/-- The words of the responses in the state after an outcome (R93). -/
def responseWords (o : Host.Outcome State Fault Refusal) : Option (List (BitVec 73)) :=
  (stateOf o).map fun t => t.responses.map Response.word

/-- The trace of the state after an outcome (R79). -/
def traceOf (o : Host.Outcome State Fault Refusal) : Option (List Event) := (stateOf o).map State.trace

/-- The 22-byte buffer that starts with the bytes listed. -/
def padded (bytes : List Byte) : Vector Byte 22 := Vector.ofFn fun i => bytes.getD i.val 0

/-- An answer of exactly these bytes. -/
def answerOf (bytes : List Byte) : BusAnswer := { busError := false, bytesRead := bytes.length, bytes := padded bytes }

/-- `BusError`. -/
def failure : BusAnswer := { busError := true, bytesRead := 0, bytes := padded [] }

/-- A write that is taken. -/
def taken : BusAnswer := answerOf []

/-- ECAL's block (R119). -/
def ecalBytes : List Byte :=
  [0x01, 0x98, 0xFF, 0xB8, 0xC7, 0xD1, 0x7F, 0xE5, 0x7F, 0xF5, 0x5A, 0x71, 0x18, 0x2E, 0x00, 0x04,
    0x80, 0x00, 0xDD, 0xF9, 0x0B, 0x34]

/-- ECAL's words (V2). -/
def ecal : CalWords :=
  #v[0x0198, 0xFFB8, 0xC7D1, 0x7FE5, 0x7FF5, 0x5A71, 0x182E, 0x0004, 0x8000, 0xDDF9, 0x0B34]

/-- `words` with the coefficient `i` replaced by `v`. -/
def withWord (words : CalWords) (i : Nat) (v : Int) : CalWords :=
  Vector.ofFn fun k => if k.val = i then BitVec.ofInt 16 v else words[k]

/-- ECAL with MD = -4743, the set of V14. -/
def faultyT : CalWords := withWord ecal 10 (-4743)

/-- ECAL with AC4 = 0, the set of V15. -/
def faultyP : CalWords := withWord ecal 3 0

/-- A calibrated CORE at step `q` of the cycle of S1, with that cycle's latches and an earlier result. -/
def atStep (q : Seq) (answers : List BusAnswer) : State :=
  { State.reset with
    cal := some ecal, calValid := true, seq := q, cmd := commandAt q,
    buf := Vector.ofFn fun i => some (padded ecalBytes)[i],
    ut := some 27898, up := some 23843, b5 := some 2400, tStage := some 150,
    pHandoff := if q = .m9 then some 69964 else none,
    resT10 := some 150, resP := some 69964, resValid := true, busIn := answers }

/-- `s` with one word pending at the host port. -/
def presenting (w : Byte) (s : State) : State := { s with hostPort := [.command w] }

/-! Well-formedness: a device command byte is no host command, and a host command is no device command byte. -/

theorem test_wellFormed_host_refuses_startT : Instr.wellFormed .host .startT = false := by decide
theorem test_wellFormed_host_refuses_startP : Instr.wellFormed .host (.startP 3) = false := by decide
theorem test_wellFormed_bus_refuses_hostCommands :
    [Instr.begin, .measure, .config 2, .getT, .getP].any (Instr.wellFormed .bus) = false := by decide
theorem test_wellFormed_program : wellFormedProgram [.begin, .measure, .getT, .getP] = true := by decide
theorem test_wellFormed_program_refuses_startT : wellFormedProgram [.begin, .startT] = false := by decide

/-! Decoding, the words written bit by bit from R90, R91 and R97. -/

theorem test_decode_calibrationStore : decode .host 0b0001_00_00 = .ok .begin := by decide
theorem test_decode_measurement :
    decode .host 0b0010_00_00 = .ok .measure ∧ decode .host 0b0011_00_10 = .ok (.config 2) ∧
    decode .bus 0b00101110 = .ok .startT ∧ decode .bus 0b01_110100 = .ok (.startP 1) := by decide
theorem test_decode_resultAccess :
    decode .host 0b0100_00_00 = .ok .getT ∧ decode .host 0b0101_00_00 = .ok .getP := by decide

/-- E1. -/
theorem test_decode_E1 :
    [(0x10 : Byte), 0x20, 0x30, 0x31, 0x32, 0x33, 0x40, 0x50].map (fun w => (decode .host w).toOption) =
      [some .begin, some .measure, some (.config 0), some (.config 1), some (.config 2), some (.config 3),
        some .getT, some .getP] := by decide

/-- E2, each word with the reason listed there. -/
theorem test_decode_E2 :
    ([0x00, 0x0F, 0x60, 0x7F, 0x80, 0xFF].all fun w => decode .host w == .error .unassignedOp) ∧
    ([0x14, 0x34, 0x38, 0x3C, 0x3F].all fun w => decode .host w == .error .reservedBits) ∧
    ([0x11, 0x12, 0x13, 0x21, 0x41, 0x53].all fun w => decode .host w == .error .unusedOperand) := by decide

/-- E3. -/
theorem test_deviceBytes_E3 :
    [0, 1, 2, 3].map (fun oss => encode (.startP oss)) = [0x34, 0x74, 0xB4, 0xF4] ∧
    [0, 1, 2, 3].map pressureDelay = [5, 8, 14, 26] ∧
    [0, 1, 2, 3].map (fun oss => (normaliseUP 0x5D2300 oss).toNat) = [23843, 47686, 95372, 190744] ∧
    [0, 1, 2, 3].map (fun oss => (normaliseUP 0xFFFFFF oss).toNat) = [65535, 131071, 262143, 524287] := by decide

/-- E4. -/
theorem test_responseWords_E4 :
    (valueResponse 150).word = 0x12D00 ∧ (valueResponse 69964).word = 0x2229900 ∧ okResponse.word = 0x0 ∧
    (errorResponse .notCalibrated .idle).word = 0x1 ∧ (errorResponse .busError .m7).word = 0x72 ∧
    (errorResponse .busError .l1).word = 0xA2 ∧ (errorResponse .calibrationInvalid .l2).word = 0xB3 ∧
    (errorResponse .arithFault .m4).word = 0x44 ∧ (errorResponse .illegalCommand .idle).word = 0x5 ∧
    (valueResponse (-1016)).word = 0x1FFFFFFFFFFFFF81100 := by decide

/-- The encodings of P1, P3 and P4's first line, and a line outside the syntax of R99. -/
theorem test_assemble :
    assemble ["BEGIN      ; 0x10", "MEASURE    ; 0x20", "CONFIG UHR ; 0x33", "CONFIG 3", "GET_T", "GET_P"] =
      some [0x10, 0x20, 0x33, 0x33, 0x40, 0x50] ∧ assemble ["CONFIG"] = none := by decide

/-- START_P(1) is placed at M5 with OSS = 1, and the next step writes it. -/
theorem test_withFetchWord :
    decodeTableWord 8 0x74 = some (.startP 1) ∧ decodeTableWord 8 0x60 = none ∧
    fetch (State.reset.withFetchWord 8 0x74) = .run (.startP 1) { State.reset with seq := .m5, oss := 1 } ∧
    fetch (State.reset.withFetchWord 8 0x40) = .run .getT State.reset := by decide

/-! The datapath. -/

/-- R12, R13, R14: the examples of the rules. -/
theorem test_datapath :
    dpShr (-1) 4 = -1 ∧ dpShr (-17) 4 = -2 ∧ dpShl (-1) 11 = -2048 ∧ dpDiv (-17840128) 7611 = some (-2343) ∧
    dpDiv 0x8000000000000000 (-1) = some 0x8000000000000000 ∧ dpDiv 1 0 = none := by decide

/-- V2: the words of ECAL's block, and its typed views. -/
theorem test_load_V2 : (load true (padded ecalBytes)).toOption = some ecal ∧
    [calAC1 ecal, calAC2 ecal, calAC3 ecal, calAC4 ecal, calAC5 ecal, calAC6 ecal, calB1 ecal, calB2 ecal, calMB ecal,
      calMC ecal, calMD ecal] = [408, -72, -14383, 32741, 32757, 23153, 6190, 4, -32768, -8711, 2868] := by decide

/-- The index that `load` reports, where it fails. -/
def failingIndex (r : Except Nat CalWords) : Option Nat :=
  match r with
  | .error k => some k
  | .ok _ => none

/-- V4: the sentinel check. -/
theorem test_load_V4 :
    failingIndex (load true (padded ((ecalBytes.set 16 0x00).set 17 0x00))) = some 8 ∧
    failingIndex (load true (padded [])) = some 0 ∧ (load false (padded [])).toOption.isSome = true := by decide

/-- Temperature and B5 as numbers. -/
def temperatureOf (words : CalWords) (ut : Nat) : Option (Int × Int) :=
  (compT words (BitVec.ofNat 16 ut)).map fun r => (r.1.toInt, r.2.toInt)

/-- Pressure as a number, B5 taken from the temperature. -/
def pressureOf (words : CalWords) (oss : BitVec 2) (ut up : Nat) : Option Int :=
  (compT words (BitVec.ofNat 16 ut)).bind fun r =>
    (compP words (BitVec.ofNat 24 up) r.2 oss).map fun (p : Word64) => p.toInt

/-- Section 4: V1, V7, V8, V9, V13, V14, V18, and the set of V3 with three unsigned words at 0xFFFF. -/
theorem test_compT_vectors :
    temperatureOf ecal 27898 = some (150, 2400) ∧ temperatureOf ecal 20290 = some (-223180, -3570888) ∧
    temperatureOf ecal 0 = some (-1392, -22267) ∧ temperatureOf ecal 65535 = some (2623, 41973) ∧
    temperatureOf ecal 23153 = some (-389, -6220) ∧ temperatureOf faultyT 27898 = none ∧
    temperatureOf (withWord ecal 10 (-4742)) 27898 = some (-1114712, -17835385) ∧
    temperatureOf (withWord (withWord (withWord ecal 3 (-1)) 4 (-1)) 5 (-1)) 27898 = some (-4689, -75027) := by
  decide

/-- Section 5: V1, V6a to V6c, V7, V10, V11, V12, V19a, V19b, V15, V16, V18. -/
theorem test_compP_vectors :
    pressureOf ecal 0 27898 23843 = some 69964 ∧ pressureOf ecal 1 27898 47686 = some 69962 ∧
    pressureOf ecal 2 27898 95372 = some 69963 ∧ pressureOf ecal 3 27898 190744 = some 69963 ∧
    pressureOf ecal 0 20290 23843 = some (-1785) ∧ pressureOf ecal 0 27898 0 = some (-1016) ∧
    pressureOf ecal 0 27898 65535 = some 195160 ∧ pressureOf ecal 3 27898 524287 = some 195162 ∧
    pressureOf ecal 0 27898 43371 = some 128433 ∧ pressureOf ecal 0 27898 43372 = some 128435 ∧
    pressureOf faultyP 0 27898 23843 = none ∧
    pressureOf (withWord (withWord ecal 6 (-32768)) 10 (-4643)) 0 27898 23843 = some (-1874) ∧
    pressureOf (withWord ecal 10 (-4742)) 0 27898 23843 = some (-1816) := by
  decide +kernel

/-- V17: the calibration whose pressure wraps. -/
def wrapping : CalWords :=
  #v[0x8000, 0xFFB8, 0x0000, 0x0001, 0x7FF5, 0x5A71, 0x0000, 0x8000, 0x8000, 0x8000, 0xED7A]

theorem test_compP_V17 : pressureOf wrapping 0 27898 65535 = some 439796450472839862 := by decide +kernel

/-! One step of each instruction, and StateIsAView's witness, test_phase. -/

/-- V5: a block of 21 bytes fails L1. -/
theorem test_begin_shortRead :
    responseWords (exec .begin (atStep .l1 [answerOf (ecalBytes.take 21)])) = some [0xA2] := by decide

/-- V2: L2 stores ECAL from reset. -/
theorem test_begin_stores :
    (stateOf (exec .begin { atStep .l2 [] with cal := none, calValid := false })).map (fun t => (t.cal, t.calValid)) =
      some (some ecal, true) := by decide

/-- S3, V14: ARITH_FAULT at M4. -/
theorem test_measure_arithFault :
    responseWords (exec .measure { atStep .m4 [] with cal := some faultyT }) = some [0x44] := by decide

/-- S2: M7 at oss 3. -/
theorem test_measure_rawPressure :
    (stateOf (exec .measure { atStep .m7 [answerOf [0x5D, 0x23, 0x00]] with oss := 3 })).map State.up =
      some (some 190744) := by decide

/-- P2: CONFIG 2 before calibration. -/
theorem test_config :
    (stateOf (exec (.config 2) State.reset)).map (fun t => (t.oss, t.calValid, t.trace)) = some (2, false, []) := by
  decide

/-- R224: GET_T at reset, and after the scenario of P1. -/
theorem test_getT :
    responseWords (exec .getT State.reset) = some [0x0] ∧ responseWords (exec .getT (atStep .idle [])) = some [0x12D00] := by
  decide

/-- R224: GET_P at reset, and after the scenario of P1. -/
theorem test_getP :
    responseWords (exec .getP State.reset) = some [0x0] ∧
    responseWords (exec .getP (atStep .idle [])) = some [0x2229900] := by decide

/-- S1, S3: M1 writes 0x2E, and its failure answers 0x12. -/
theorem test_startT :
    traceOf (exec .startT (atStep .m1 [taken])) = some [.wr 0x77 0xF4 0x2E true] ∧
    responseWords (exec .startT (atStep .m1 [failure])) = some [0x12] := by decide

/-- S2, S3: M5 at oss 3 writes 0xF4, and its failure answers 0x52. -/
theorem test_startP :
    traceOf (exec (.startP 3) (atStep .m5 [taken])) = some [.wr 0x77 0xF4 0xF4 true] ∧
    responseWords (exec (.startP 3) (atStep .m5 [failure])) = some [0x52] := by decide

/-- R37: STATE is a view of SEQ and CAL_VALID. -/
theorem test_phase :
    State.reset.phase = .uninitialized ∧ (atStep .idle []).phase = .calibrated ∧
    (atStep .m4 []).phase = .measuringTemperature ∧ (atStep .m5 []).phase = .measuringPressure ∧
    (atStep .m9 []).phase = .calibrated := by decide

/-! Witnesses: for each obligation with hypotheses, states and operands that meet them together, clause by clause. -/

/-- DecodeAndEncodeAgree: its three hypotheses. -/
theorem witness_decodeAndEncodeAgree :
    Instr.wellFormed .host (.config 3) = true ∧ Instr.wellFormed .bus (.startP 3) = true ∧
    Instr.wellFormed .bus .begin = false ∧ decode .bus 0xF4 = .ok (.startP 3) := by decide

/-- IllegalWordOnlyAnswers: one word for each reason, at the edges of the ranges. -/
theorem witness_illegalWordOnlyAnswers :
    ([0x0F, 0x60, 0x14, 0x11] : List Byte).all fun w =>
      (presenting w (atStep .idle [])).seq = .idle ∧ (presenting w (atStep .idle [])).hostPort = [.command w] ∧
      (w.extractLsb' 4 4 = 0 ∨ 6 ≤ (w.extractLsb' 4 4).toNat ∨ w.extractLsb' 2 2 ≠ 0 ∨
        (w.extractLsb' 4 4 ≠ 3 ∧ w.extractLsb' 0 2 ≠ 0)) := by decide

/-- AssemblerEmitsWords: a host command, and an instruction that is none. -/
theorem witness_assemblerEmitsWords :
    Instr.wellFormed .host (.config 3) = true ∧ Instr.wellFormed .host (.startP 0) = false := by decide

/-- StepRunsTheInstruction: a state for each clause. -/
theorem witness_stepRunsTheInstruction :
    (presenting 0x33 State.reset).seq = .idle ∧ (presenting 0x33 State.reset).hostPort = [.command 0x33] ∧
    decode .host 0x33 = .ok (.config 3) ∧ State.reset.seq = .idle ∧ State.reset.hostPort = [] ∧
    (atStep .l1 []).seq.loading = true ∧ (atStep .l2 []).seq.loading = true ∧ (atStep .m1 []).seq = .m1 ∧
    (atStep .m5 []).seq = .m5 ∧
    ([Seq.m2, .m3, .m4, .m6, .m7, .m8, .m9].all fun q =>
      (atStep q []).seq.measuring = true ∧ (atStep q []).seq ≠ .m1 ∧ (atStep q []).seq ≠ .m5) := by decide

/-- BusyPortHoldsMoves, SequencerOrderIsFixed, OneResponseEndsACommand: a step in the middle of a cycle and one that ends
it, with a word pending. -/
theorem witness_busyStep :
    (presenting 0x30 (atStep .m2 [])).seq ≠ .idle ∧ (∃ t, step (presenting 0x30 (atStep .m2 [])) = .next t) ∧
    (presenting 0x30 (atStep .m9 [])).seq ≠ .idle ∧ ∃ t, step (presenting 0x30 (atStep .m9 [])) = .next t :=
  ⟨by decide, ⟨_, rfl⟩, by decide, ⟨_, rfl⟩⟩

/-- BusyCommandIsHeld: CONFIG and MEASURE while a block is read, BEGIN during a cycle. -/
theorem witness_busyCommandIsHeld :
    Instr.wellFormed .host (.config 3) = true ∧ Instr.wellFormed .host .measure = true ∧
    Instr.wellFormed .host .begin = true ∧ (atStep .l2 []).seq ≠ .idle ∧ (atStep .l2 []).seq.measuring = false ∧
    (atStep .m9 []).seq ≠ .idle ∧ (atStep .m9 []).seq.loading = false := by decide

/-- SecondResetDiscardsState. -/
theorem witness_secondReset :
    (atStep .idle []).seq = .idle ∧
    ({ atStep .idle [] with hostPort := [.construct Config.defaultParams, .command 0x10] } : State).hostPort =
      .construct Config.defaultParams :: [.command 0x10] := by decide

/-- ReadHasThreeOutcomes: all 22 bytes, none asked for, one byte short, one too many, and BusError. -/
theorem witness_readHasThreeOutcomes :
    (nextAnswer (atStep .l1 [answerOf ecalBytes])).busError = false ∧
    (nextAnswer (atStep .l1 [answerOf ecalBytes])).bytesRead = 22 ∧
    (nextAnswer (atStep .l1 [taken])).bytesRead = 0 ∧
    ([answerOf (ecalBytes.take 21), answerOf (ecalBytes ++ [0]), failure].all fun a =>
      ¬ ((nextAnswer (atStep .l1 [a])).busError = false ∧ (nextAnswer (atStep .l1 [a])).bytesRead = 22)) := by decide

/-- EachStepIssuesItsOwnEvent, ParametersAreConstant, StoreChangesOnlyAtL2, OssChangesOnlyByConfig,
ResultsChangeOnlyAtPublish: a step in the middle of a cycle, which takes no construction. -/
theorem witness_step :
    ¬ TakesConstruction (atStep .m3 [answerOf [0x6C, 0xFA]]) ∧ (atStep .m3 [answerOf [0x6C, 0xFA]]).seq ≠ .m9 ∧
    (atStep .m3 [answerOf [0x6C, 0xFA]]).seq ≠ .l2 ∧ (atStep .m3 [answerOf [0x6C, 0xFA]]).calValid = true ∧
    ∃ t, step (atStep .m3 [answerOf [0x6C, 0xFA]]) = .next t :=
  ⟨(fun h => nomatch h.1), by decide, by decide, by decide, ⟨_, rfl⟩⟩

/-- The same obligations: a step that takes CONFIG 3. -/
theorem witness_step_config :
    ¬ TakesConstruction (presenting 0x33 (atStep .idle [])) ∧ TakesWord (presenting 0x33 (atStep .idle [])) 0x33 ∧
    ∃ t, step (presenting 0x33 (atStep .idle [])) = .next t :=
  ⟨(fun ⟨_, _, _, h⟩ => nomatch h), ⟨rfl, [], rfl⟩, ⟨_, rfl⟩⟩

/-- LoadDecodesAndChecks: a block that is stored, and one that fails at the last index. -/
theorem witness_load :
    (load true (padded ecalBytes)).toOption = some ecal ∧
    failingIndex (load true (padded (ecalBytes.take 20))) = some 10 := by decide

/-- BeginIsAccepted, ConfigSetsOss, and the getters: the ready port, before and after a first measurement. -/
theorem witness_ready :
    State.reset.seq = .idle ∧ State.reset.resValid = false ∧ (atStep .idle []).seq = .idle ∧
    (atStep .idle []).resValid = true ∧ (atStep .idle []).resT10 = some 150 ∧ (atStep .idle []).resP = some 69964 := by
  decide

/-- BeginReadsBlock: the block, a short read, BusError. -/
theorem witness_beginReadsBlock :
    (atStep .l1 [answerOf ecalBytes]).seq = .l1 ∧
    ((nextAnswer (atStep .l1 [answerOf ecalBytes])).busError = false ∧
      (nextAnswer (atStep .l1 [answerOf ecalBytes])).bytesRead = 22) ∧
    ¬ ((nextAnswer (atStep .l1 [answerOf (ecalBytes.take 21)])).busError = false ∧
      (nextAnswer (atStep .l1 [answerOf (ecalBytes.take 21)])).bytesRead = 22) ∧
    (nextAnswer (atStep .l1 [failure])).busError = true := by decide

/-- L2 with the sentinel check on and a block whose word 3 is 0xFFFF (V4). -/
def invalidBlock : State :=
  { atStep .l2 [] with
    params := { Config.defaultParams with calSentinelCheck := true },
    buf := Vector.ofFn fun i => some (padded ((ecalBytes.set 6 0xFF).set 7 0xFF))[i] }

/-- A calibrated CORE with the sentinel check on, and a transport that will answer a block of zeros (V4). -/
def failingReload : State :=
  { atStep .idle [answerOf (List.replicate 22 0)] with
    params := { Config.defaultParams with calSentinelCheck := true } }

/-- BeginCommitsBlock: a block that is stored, and one that is not. -/
theorem witness_beginCommitsBlock :
    (atStep .l2 []).seq = .l2 ∧ (∀ i : Fin 22, (atStep .l2 []).buf[i] = some (padded ecalBytes)[i]) ∧
    (load (atStep .l2 []).params.calSentinelCheck (padded ecalBytes)).toOption = some ecal ∧
    invalidBlock.seq = .l2 ∧
    (∀ i : Fin 22, invalidBlock.buf[i] = some (padded ((ecalBytes.set 6 0xFF).set 7 0xFF))[i]) ∧
    failingIndex (load invalidBlock.params.calSentinelCheck (padded ((ecalBytes.set 6 0xFF).set 7 0xFF))) = some 3 := by
  decide

/-- BeginRunLoadsStore. -/
theorem witness_beginRun :
    (presenting 0x10 (atStep .idle [answerOf ecalBytes])).seq = .idle ∧
    (presenting 0x10 (atStep .idle [answerOf ecalBytes])).hostPort = [.command 0x10] ∧
    (nextAnswer (presenting 0x10 (atStep .idle [answerOf ecalBytes]))).busError = false ∧
    (nextAnswer (presenting 0x10 (atStep .idle [answerOf ecalBytes]))).bytesRead = 22 ∧
    (load false (nextAnswer (presenting 0x10 (atStep .idle [answerOf ecalBytes]))).bytes).toOption = some ecal := by decide

/-- FailedBeginKeepsState: a BEGIN that fails at L1, and one that fails at L2, each run to its response. -/
theorem witness_failedBegin :
    (presenting 0x10 (atStep .idle [failure])).seq = .idle ∧
    (presenting 0x10 (atStep .idle [failure])).hostPort = [.command 0x10] ∧
    (stateOf (Host.Core.run core 3 (presenting 0x10 (atStep .idle [failure])))).map State.responses =
      some [errorResponse .busError .l1] ∧
    (presenting 0x10 failingReload).seq = .idle ∧ (presenting 0x10 failingReload).hostPort = [.command 0x10] ∧
    (stateOf (Host.Core.run core 3 (presenting 0x10 failingReload))).map State.responses =
      some [errorResponse .calibrationInvalid .l2] := by decide

/-- AbortIsPrecise, ErrorsAreRaisedWhereListed, StoreChangesOnlyAtL2: an abort at L1, L2, M1, M3, M4, M5, M7 and M8, each a
step that answers one error. -/
theorem witness_aborts :
    (stateOf (step (atStep .l1 [failure]))).map (fun t => t.responses) = some [errorResponse .busError .l1] ∧
    (stateOf (step invalidBlock)).map (fun t => t.responses) = some [errorResponse .calibrationInvalid .l2] ∧
    ([Seq.m1, .m3, .m5, .m7].all fun q =>
      (stateOf (step (atStep q [failure]))).map (fun t => t.responses) = some [errorResponse .busError q]) ∧
    (stateOf (step { atStep .m4 [] with cal := some faultyT })).map (fun t => t.responses) =
      some [errorResponse .arithFault .m4] ∧
    (stateOf (step { atStep .m8 [] with cal := some faultyP })).map (fun t => t.responses) =
      some [errorResponse .arithFault .m8] ∧
    (errorResponse .busError .l1).status ≠ .ok := by decide

/-- ErrorsAreRaisedWhereListed: the two errors at the port, and a response without error. -/
theorem witness_responsesAtThePort :
    (stateOf (step (presenting 0x20 State.reset))).map (fun t => t.responses) =
      some [errorResponse .notCalibrated .idle] ∧
    (stateOf (step (presenting 0x60 State.reset))).map (fun t => t.responses) =
      some [errorResponse .illegalCommand .idle] ∧
    (stateOf (step (presenting 0x40 State.reset))).map (fun t => t.responses) = some [okResponse] := by decide

/-- MeasureAcceptance: both values of CAL_VALID. -/
theorem witness_measureAcceptance :
    State.reset.seq = .idle ∧ State.reset.calValid = false ∧ (atStep .idle []).seq = .idle ∧
    (atStep .idle []).calValid = true := by decide

/-- StartTemperatureConversion, StartPressureConversion: both answers, and a step that reaches M5. -/
theorem witness_startConversion :
    (atStep .m1 [taken]).seq = .m1 ∧ (atStep .m5 [taken]).seq = .m5 ∧
    (nextAnswer (atStep .m5 [taken])).busError = false ∧ (nextAnswer (atStep .m5 [failure])).busError = true ∧
    (stateOf (step (atStep .m4 []))).map State.seq = some .m5 ∧
    (nextAnswer (atStep .m1 [taken])).busError = false ∧ (nextAnswer (atStep .m1 [failure])).busError = true := by decide

/-- SettleStepsRequestDelays, DelaysRiseAndCoverNominal. -/
theorem witness_delays :
    (atStep .m2 []).seq = .m2 ∧ (atStep .m6 []).seq = .m6 ∧ (2 : BitVec 2).toNat ≤ (3 : BitVec 2).toNat := by decide

/-- SettleComesBeforeRead: a step that reaches each of the five. -/
theorem witness_settleComesBeforeRead :
    (stateOf (step (atStep .m2 []))).map State.seq = some .m3 ∧ (stateOf (step (atStep .m6 []))).map State.seq = some .m7 ∧
    (stateOf (step (atStep .m7 [answerOf [0x5D, 0x23, 0x00]]))).map State.seq = some .m8 ∧
    (stateOf (step (atStep .m5 [taken]))).map State.seq = some .m6 ∧
    (stateOf (step (atStep .m4 []))).map State.seq = some .m5 := by decide

/-- MeasureReadsRawTemperature and MeasureReadsRawPressure: the length asked for, and one byte less. -/
theorem witness_rawReads :
    (atStep .m3 [answerOf [0x6C, 0xFA]]).seq = .m3 ∧
    (nextAnswer (atStep .m3 [answerOf [0x6C, 0xFA]])).busError = false ∧
    (nextAnswer (atStep .m3 [answerOf [0x6C, 0xFA]])).bytesRead = 2 ∧
    (nextAnswer (atStep .m3 [answerOf [0x6C]])).bytesRead ≠ 2 ∧
    (atStep .m7 [answerOf [0x5D, 0x23, 0x00]]).seq = .m7 ∧
    (nextAnswer (atStep .m7 [answerOf [0x5D, 0x23, 0x00]])).busError = false ∧
    (nextAnswer (atStep .m7 [answerOf [0x5D, 0x23, 0x00]])).bytesRead = 3 ∧
    (nextAnswer (atStep .m7 [answerOf [0x5D, 0x23]])).bytesRead ≠ 3 := by decide

/-- MeasureComputesTemperature: a value, and a zero divisor. -/
theorem witness_computesTemperature :
    (atStep .m4 []).seq = .m4 ∧ (atStep .m4 []).ut = some 27898 ∧ (atStep .m4 []).cal = some ecal ∧
    compT ecal 27898 = some (150, 2400) ∧ ({ atStep .m4 [] with cal := some faultyT } : State).cal = some faultyT ∧
    compT faultyT 27898 = none := by decide

/-- MeasureComputesPressure: a value, and a zero divisor. -/
theorem witness_computesPressure :
    (atStep .m8 []).seq = .m8 ∧ (atStep .m8 []).up = some 23843 ∧ (atStep .m8 []).b5 = some 2400 ∧
    (atStep .m8 []).cal = some ecal ∧ compP ecal 23843 2400 (atStep .m8 []).oss = some 69964 ∧
    ({ atStep .m8 [] with cal := some faultyP } : State).cal = some faultyP ∧ compP faultyP 23843 2400 0 = none := by decide

/-- MeasurePublishesTogether. -/
theorem witness_publish :
    (atStep .m9 []).seq = .m9 ∧ (atStep .m9 []).tStage = some 150 ∧ (atStep .m9 []).pHandoff = some 69964 := by decide

/-- A MEASURE whose four transactions are those of S1, from a state with `ut` left over. -/
def cycleStart (ut : Option Word16) : State :=
  presenting 0x20
    { atStep .idle [taken, answerOf [0x6C, 0xFA], taken, answerOf [0x5D, 0x23, 0x00]] with ut := ut }

/-- MeasureCyclePublishesResults. -/
theorem witness_cycle :
    (cycleStart none).seq = .idle ∧ (cycleStart none).hostPort = [.command 0x20] ∧
    (cycleStart none).calValid = true ∧ (cycleStart none).cal = some ecal ∧
    (nextAnswer (cycleStart none)).busError = false ∧
    readOk 2 (nextAnswer (cycleStart none).takeAnswer) = true ∧
    (nextAnswer (cycleStart none).takeAnswer.takeAnswer).busError = false ∧
    readOk 3 (nextAnswer (cycleStart none).takeAnswer.takeAnswer.takeAnswer) = true ∧
    compT ecal (bytes16 0x6C 0xFA) = some (150, 2400) ∧
    compP ecal (normaliseUP (bytes24 0x5D 0x23 0x00) 0) 2400 0 = some 69964 := by decide

/-- MeasureDependsOnlyOnItsInputs: two states that differ in what the rule does not name. -/
theorem witness_twoCycles :
    cycleStart none ≠ cycleStart (some 5) ∧ (cycleStart (some 5)).seq = .idle ∧
    (cycleStart (some 5)).hostPort = [.command 0x20] ∧ (cycleStart (some 5)).calValid = true ∧
    (cycleStart (some 5)).cal = some ecal ∧ (cycleStart none).oss = (cycleStart (some 5)).oss ∧
    nextAnswer (cycleStart none) = nextAnswer (cycleStart (some 5)) ∧
    nextAnswer (cycleStart none).takeAnswer = nextAnswer (cycleStart (some 5)).takeAnswer ∧
    nextAnswer (cycleStart none).takeAnswer.takeAnswer = nextAnswer (cycleStart (some 5)).takeAnswer.takeAnswer ∧
    nextAnswer (cycleStart none).takeAnswer.takeAnswer.takeAnswer =
      nextAnswer (cycleStart (some 5)).takeAnswer.takeAnswer.takeAnswer := by decide

/-- TemperatureFormulaIsExact: the zero divisor of V14, and V18 next to it. -/
theorem witness_temperatureFormula :
    ((27898 : Int) - (faultyT[5]).toNat) * (faultyT[4]).toNat / 32768 + (faultyT[10]).toInt = 0 ∧
    ((27898 : Int) - (ecal[5]).toNat) * (ecal[4]).toNat / 32768 + (withWord ecal 10 (-4742))[10].toInt ≠ 0 := by decide

/-- PressureFormulaIsExact: the ends of the range of B5 and the largest UP, with B4 = 0 and with B4 different from 0. -/
theorem witness_pressureFormula :
    (-67239933 : Int) ≤ (-67239933 : Word64).toInt ∧ (67239932 : Word64).toInt ≤ 67239932 ∧
    (524287 : Word24).toNat < 2 ^ (16 + (3 : BitVec 2).toNat) ∧ presB4 faultyP (presB6 67239932) = 0 ∧
    presB4 ecal (presB6 67239932) ≠ 0 ∧ presB4 ecal (presB6 (-67239933)) ≠ 0 := by decide

/-- FinalCorrectionIsExact: the first and the last P of R206. -/
theorem witness_finalCorrection :
    (-55099921 : Int) ≤ (-14105579776 : Word64).toInt / 256 ∧ (14105580031 : Word64).toInt / 256 ≤ 55099921 ∧
    ¬ ((-55099921 : Int) ≤ (-14105579777 : Word64).toInt / 256) ∧ ¬ ((14105580032 : Word64).toInt / 256 ≤ 55099921) := by
  decide

/-- DatapathIsTwosComplement: both ends of the shift counts. -/
theorem witness_shiftCounts : 0 ≤ 63 ∧ (63 : Nat) ≤ 63 := by decide

/-- ECAL with AC5 = 0: X1 is 0 whatever UT is. -/
def withoutSlope : CalWords := withWord ecal 4 0

theorem withoutSlope_x1 (ut : Word16) : tempX1 withoutSlope ut = 0 := by
  have h : calAC5 withoutSlope = 0 := by decide
  rw [tempX1, h, show ∀ a, dpMul a 0 = 0 from fun a => by simp [dpMul, wrap64]]
  decide

/-- UnwrittenReadsGoOn: a state for each clause, with the register that it reads unwritten. -/
theorem witness_unwritten :
    (∀ i : Fin 22, ({ State.reset with seq := .l2 } : State).buf[i] = none) ∧
    (∃ stored, load false (Vector.ofFn fun i : Fin 22 => Config.unwrittenBUF i) = .ok stored) ∧
    State.reset.ut = none ∧ (∃ r, compT withoutSlope Config.unwrittenUT = some r) ∧
    State.reset.up = none ∧ (∃ p, compP ecal Config.unwrittenUP 2400 0 = some p) ∧
    State.reset.tStage = none ∧ State.reset.pHandoff = none ∧
    ({ State.reset with resValid := true } : State).seq = .idle ∧
    ({ State.reset with resValid := true } : State).resT10 = none ∧
    ({ State.reset with resValid := true } : State).resP = none := by
  refine ⟨by decide, ⟨_, rfl⟩, rfl, ?_, rfl, ?_, rfl, rfl, rfl, rfl, rfl⟩
  · refine Option.ne_none_iff_exists'.1 fun h => ?_
    rw [compT_eq_none_iff, withoutSlope_x1] at h
    revert h
    decide
  · refine Option.ne_none_iff_exists'.1 fun h => ?_
    rw [compP_eq_none_iff] at h
    revert h
    decide

/-- StepKeepsInvariant, OnlyWrittenRegistersAreRead: the invariant holds at every step of the cycle of S1
and of a reload, in a state that is not the reset state. -/
theorem witness_inv (q : Seq) : Inv (atStep q []) where
  calWritten _ := rfl
  cycleCalibrated _ := rfl
  cmdOfSeq := rfl
  blockRead _ := (by decide : ∀ i : Fin 22, (atStep .l2 []).buf[i].isSome = true)
  rawTemperature _ := rfl
  temperature _ := ⟨ecal, 27898, 150, 2400, rfl, rfl, by decide, rfl, rfl⟩
  rawPressure _ := ⟨23843, rfl, (by decide : (23843 : Word24).toNat < 2 ^ upBits 0)⟩
  pressure h := ⟨ecal, 23843, 2400, 69964, rfl, rfl, rfl, (by decide : compP ecal 23843 2400 0 = some 69964), if_pos h⟩
  noPressureElsewhere h := if_neg h
  resultsWritten _ := ⟨rfl, rfl⟩
  traceAllowed e h := nomatch h
  responsesAllowed r h := nomatch h

/-- The same: from these states a step answers a next state. -/
theorem witness_inv_step : Inv (atStep .m9 []) ∧ atStep .m9 [] ≠ State.reset ∧ ∃ t, step (atStep .m9 []) = .next t := ⟨witness_inv .m9, by decide, _, rfl⟩

/-- An event and a response that the invariant admits, and one of each that it does not. -/
theorem witness_allowed :
    AllowedEvent 0x77 (.wr 0x77 0xF4 0xB4 true) ∧ ¬ AllowedEvent 0x77 (.wr 0x77 0xF4 0x00 true) ∧
    AllowedResponse Config.defaultParams (errorResponse .busError .m7) ∧
    ¬ AllowedResponse Config.defaultParams (errorResponse .busError .m8) := by
  simp [AllowedEvent, AllowedResponse, errorResponse]

end Sys2Proof.Tests
end

section
/-! The datapath's operations as operations on bit vectors (00_scope.md R10 to R15), and the parameters of the state
after reset (R6). -/

namespace Sys2Proof.Machine

open Sys2Proof

/-- The wrap of `v` is the word whose signed value is `v` modulo 2^64 (R10). -/
theorem wrap64_eq_of_toInt {v : Int} {w : Word64} (h : w.toInt = v.bmod (2 ^ 64)) : wrap64 v = w :=
  BitVec.eq_of_toInt_eq (by rw [wrap64, BitVec.toInt_ofInt, h])

theorem dpAdd_eq_add (a b : Word64) : dpAdd a b = a + b := wrap64_eq_of_toInt (BitVec.toInt_add a b)

theorem dpSub_eq_sub (a b : Word64) : dpSub a b = a - b := wrap64_eq_of_toInt BitVec.toInt_sub

theorem dpMul_eq_mul (a b : Word64) : dpMul a b = a * b := wrap64_eq_of_toInt (BitVec.toInt_mul a b)

/-- The floor of R12 is the arithmetic shift, for every count. -/
theorem dpShr_eq_sshiftRight (a : Word64) (n : Nat) : dpShr a n = a.sshiftRight n := by
  apply BitVec.eq_of_toInt_eq
  rw [dpShr_toInt, BitVec.toInt_sshiftRight, Int.shiftRight_eq_div_pow]
  norm_cast

/-- The wrap of a power of two is the word with that one bit, and 0 past the top bit. -/
theorem wrap64_two_pow (n : Nat) : wrap64 (2 ^ n) = BitVec.twoPow 64 n := by
  apply BitVec.eq_of_toNat_eq
  rw [wrap64, BitVec.toNat_ofInt, BitVec.toNat_twoPow]
  norm_cast

/-- A left shift multiplies by a power of two (R13), for every count. -/
theorem dpShl_eq_shiftLeft (a : Word64) (n : Nat) : dpShl a n = a <<< n :=
  calc dpShl a n = wrap64 a.toInt * wrap64 (2 ^ n) := BitVec.ofInt_mul _ _
    _ = a * BitVec.twoPow 64 n := by rw [wrap64_toInt_self, wrap64_two_pow]
    _ = a <<< n := (BitVec.shiftLeft_eq_mul_twoPow a n).symm

/-- The truncating quotient, wrapped, is the machine's signed division, the overflow of the lowest value by -1 included
(R14). -/
theorem dpDiv_eq_sdiv (a b : Word64) : dpDiv a b = if b = 0 then none else some (a.sdiv b) := by
  rw [dpDiv, wrap64_eq_of_toInt (BitVec.toInt_sdiv a b)]

theorem dpLt_eq_slt (a b : Word64) : dpLt a b = a.slt b := by
  rw [dpLt, BitVec.slt_eq_decide]

/-- Settles O46: each operation is the one of its lemma above, and none needs the bound on the shift count. -/
theorem datapathIsTwosComplement : Obligations.DatapathIsTwosComplement := fun a b n _ =>
  ⟨dpAdd_eq_add a b, dpSub_eq_sub a b, dpMul_eq_mul a b, dpShr_eq_sshiftRight a n, dpShl_eq_shiftLeft a n,
    dpDiv_eq_sdiv a b, dpLt_eq_slt a b⟩

/-- Settles O59: `State.reset` is construction with `Config.defaultParams`, whose fields are these values. -/
theorem resetTakesDefaultParameters : Obligations.ResetTakesDefaultParameters := rfl

end Sys2Proof.Machine
end

section
/-! The invariant in three parts: what does not depend on SEQ, what the command in progress needs, and what the latches
hold at each step (10_state.md R43, R46, R48). -/

namespace Sys2Proof.Safety

open Sys2Proof Sys2Proof.Machine

/-! What does not depend on SEQ. -/

/-- The clauses of the invariant that do not speak of SEQ: R48(a), R48(e), R63 and R230. -/
def Standing (s : State) : Prop :=
  (s.calValid = true → s.cal.isSome = true) ∧
  (s.resValid = true → s.resT10.isSome = true ∧ s.resP.isSome = true) ∧
  (∀ e ∈ s.trace, AllowedEvent s.params.devAddr e) ∧
  ∀ r ∈ s.responses, AllowedResponse s.params r

theorem Inv.standing {s : State} (h : Inv s) : Standing s :=
  ⟨h.calWritten, h.resultsWritten, h.traceAllowed, h.responsesAllowed⟩

theorem standing_construct (p : Params) : Standing (State.construct p) := ⟨nofun, nofun, nofun, nofun⟩

theorem Standing.emit {s : State} {r : Response} (h : Standing s) (hr : AllowedResponse s.params r) :
    Standing (s.emit r) := by
  obtain ⟨hcal, hres, htrace, hresp⟩ := h
  exact ⟨hcal, hres, htrace, List.forall_mem_append.2 ⟨hresp, List.forall_mem_singleton.2 hr⟩⟩

theorem Standing.record {s : State} {e : Event} (h : Standing s) (he : AllowedEvent s.params.devAddr e) :
    Standing (s.record e) := by
  obtain ⟨hcal, hres, htrace, hresp⟩ := h
  exact ⟨hcal, hres, List.forall_mem_append.2 ⟨htrace, List.forall_mem_singleton.2 he⟩, hresp⟩

/-- A transaction records its event and touches nothing else but the transport's answers (R68, R79). -/
theorem afterTransaction_eq (e : Event) (s : State) :
    afterTransaction e s = { s.record e with
      busIn := s.busIn.tail, busDraws := if s.busIn = [] then s.busDraws + 1 else s.busDraws } := by
  cases hb : s.busIn <;> simp [afterTransaction, State.takeAnswer, State.record, hb]

/-! The events of the steps (R63, R70). -/

theorem allowedEvent_calibrationRead (dev : BitVec 7) (bytes : Vector Byte 22) :
    AllowedEvent dev (.rd dev 0xAA 22 (some bytes.toList)) := by
  simp [AllowedEvent]

theorem allowedEvent_resultRead (dev : BitVec 7) (bytes : Vector Byte 22) {n : Nat} (hn : n = 2 ∨ n = 3) :
    AllowedEvent dev (.rd dev 0xF6 n (some (bytes.toList.take n))) := by
  have hlen : min n 22 = n := by omega
  simp [AllowedEvent, hn, hlen]

theorem allowedEvent_failedRead (dev : BitVec 7) {addr : Byte} {n : Nat}
    (h : (addr = 0xAA ∧ n = 22) ∨ (addr = 0xF6 ∧ (n = 2 ∨ n = 3))) : AllowedEvent dev (.rd dev addr n none) :=
  ⟨rfl, h, nofun⟩

/-- The four bytes of START_P (R97). -/
theorem encode_startP_cases (oss : BitVec 2) :
    encode (.startP oss) = 0x34 ∨ encode (.startP oss) = 0x74 ∨ encode (.startP oss) = 0xB4 ∨
      encode (.startP oss) = 0xF4 := by
  revert oss
  decide

theorem allowedEvent_startT (dev : BitVec 7) (ok : Bool) : AllowedEvent dev (.wr dev 0xF4 (encode .startT) ok) :=
  ⟨rfl, rfl, .inl rfl⟩

theorem allowedEvent_startP (dev : BitVec 7) (oss : BitVec 2) (ok : Bool) :
    AllowedEvent dev (.wr dev 0xF4 (encode (.startP oss)) ok) :=
  ⟨rfl, rfl, .inr (encode_startP_cases oss)⟩

/-- The delays of R141 are those that R63 and R70 list. -/
theorem allowedEvent_pressureDelay (dev : BitVec 7) (oss : BitVec 2) : AllowedEvent dev (.dly (pressureDelay oss)) := by
  cases hset : settingOf oss <;> simp [AllowedEvent, pressureDelay, hset]

/-! What the steps of a cycle find in the latches. -/

/-- T_STAGE and B5 are what CompT gives for CAL and UT (R48(c)). -/
def StagedTemperature (s : State) : Prop :=
  ∃ words ut t b5, s.cal = some words ∧ s.ut = some ut ∧ compT words ut = some (t, b5) ∧
    s.tStage = some t ∧ s.b5 = some b5

/-- UP is written and in the range of OSS (R48(d), R148). -/
def LatchedPressure (s : State) : Prop := ∃ up, s.up = some up ∧ up.toNat < 2 ^ upBits s.oss

/-- The handed pressure is what CompP gives for CAL, UP, B5 and OSS (R48(d)). -/
def HandedPressure (s : State) : Prop :=
  ∃ words up b5 p, s.cal = some words ∧ s.up = some up ∧ s.b5 = some b5 ∧
    compP words up b5 s.oss = some p ∧ s.pHandoff = some p

/-- The clauses of the invariant about BUF, the latches and the handed pressure, step by step (R46, R48(c), R48(d),
R42). -/
def Latched (s : State) : Prop :=
  match s.seq with
  | .idle | .l1 | .m1 | .m2 | .m3 => s.pHandoff = none
  | .l2 => s.pHandoff = none ∧ ∀ i : Fin 22, s.buf[i].isSome = true
  | .m4 => s.pHandoff = none ∧ s.ut.isSome = true
  | .m5 | .m6 | .m7 => s.pHandoff = none ∧ StagedTemperature s
  | .m8 => s.pHandoff = none ∧ StagedTemperature s ∧ LatchedPressure s
  | .m9 => HandedPressure s ∧ StagedTemperature s ∧ LatchedPressure s

theorem Latched.stagedTemperature {s : State} (h : Latched s) (hk : temperatureKnown s.seq = true) :
    StagedTemperature s := by
  cases hq : s.seq <;> simp only [hq, temperatureKnown, Bool.false_eq_true, Latched] at hk h
  case m5 | m6 | m7 => exact h.2
  all_goals
    obtain ⟨-, hstaged, -⟩ := h
    exact hstaged

theorem Latched.latchedPressure {s : State} (h : Latched s) (hk : rawPressureKnown s.seq = true) :
    LatchedPressure s := by
  cases hq : s.seq <;> simp only [hq, rawPressureKnown, Bool.false_eq_true, Latched] at hk h
  all_goals
    obtain ⟨-, -, hup⟩ := h
    exact hup

theorem Latched.pHandoff_eq_none {s : State} (h : Latched s) (hne : s.seq ≠ .m9) : s.pHandoff = none := by
  cases hq : s.seq <;> simp only [hq, Latched] at h
  case idle | l1 | m1 | m2 | m3 => exact h
  case m9 => exact absurd hq hne
  all_goals exact h.1

/-- The three parts make the invariant; a step's case then proves each for its next state. -/
theorem inv_of_parts {s : State} (hs : Standing s) (hv : s.seq.measuring = true → s.calValid = true)
    (hc : s.cmd = commandAt s.seq) (hl : Latched s) : Inv s := by
  obtain ⟨hcal, hres, htrace, hresp⟩ := hs
  exact {
    calWritten := hcal
    cycleCalibrated := hv
    cmdOfSeq := hc
    blockRead := fun hq => by simp only [Latched, hq] at hl; exact hl.2
    rawTemperature := fun hq => by simp only [Latched, hq] at hl; exact hl.2
    temperature := hl.stagedTemperature
    rawPressure := hl.latchedPressure
    pressure := fun hq => by simp only [Latched, hq] at hl; exact hl.1
    noPressureElsewhere := hl.pHandoff_eq_none
    resultsWritten := hres
    traceAllowed := htrace
    responsesAllowed := hresp }

/-- The invariant of an idle state. -/
theorem inv_of_idle {s : State} (hs : Standing s) (hq : s.seq = .idle) (hc : s.cmd = none) (hp : s.pHandoff = none) :
    Inv s :=
  inv_of_parts hs (by simp [hq, Seq.measuring]) (by simp [hq, hc, commandAt, Seq.measuring, Seq.loading])
    (by simpa only [Latched, hq] using hp)

/-- A step that ends in a response keeps the invariant, whatever the step was (R93). -/
theorem inv_emit {s : State} {r : Response} (hs : Standing s) (hp : s.pHandoff = none)
    (hr : AllowedResponse s.params r) : Inv (s.emit r) :=
  inv_of_idle (hs.emit hr) rfl rfl hp

/-- The next step within a command belongs to the same command (R36). -/
theorem commandAt_successor {q q' : Seq} (h : successor q = some q') :
    q'.measuring = q.measuring ∧ commandAt q' = commandAt q := by
  cases q <;> simp only [successor, Option.some.injEq, reduceCtorEq] at h <;> subst h <;> exact ⟨rfl, rfl⟩

/-- A step that goes on within its command keeps the invariant if it leaves the latches as the next step needs them. -/
theorem Inv.advance {s t : State} {q : Seq} (h : Inv s) (hq : s.seq = q) (hsucc : successor q = some t.seq)
    (hv : t.calValid = s.calValid) (hc : t.cmd = s.cmd) (hs : Standing t) (hl : Latched t) : Inv t := by
  subst hq
  obtain ⟨hm, hcmd⟩ := commandAt_successor hsucc
  exact inv_of_parts hs (hm ▸ hv ▸ h.cycleCalibrated) (by rw [hc, h.cmdOfSeq, hcmd]) hl

/-! What the invariant gives at a step. -/

theorem Inv.pHandoff_eq_none {s : State} {q : Seq} (h : Inv s) (hq : s.seq = q) (hne : q ≠ .m9) :
    s.pHandoff = none :=
  h.noPressureElsewhere (hq ▸ hne)

theorem Inv.exists_cal {s : State} {q : Seq} (h : Inv s) (hq : s.seq = q) (hm : q.measuring = true) :
    ∃ words, s.cal = some words :=
  Option.isSome_iff_exists.1 (h.calWritten (h.cycleCalibrated (hq ▸ hm)))

theorem Inv.exists_ut {s : State} (h : Inv s) (hq : s.seq = .m4) : ∃ ut, s.ut = some ut :=
  Option.isSome_iff_exists.1 (h.rawTemperature hq)

theorem Inv.stagedTemperature {s : State} {q : Seq} (h : Inv s) (hq : s.seq = q) (hk : temperatureKnown q = true) :
    StagedTemperature s :=
  h.temperature (hq ▸ hk)

theorem Inv.latchedPressure {s : State} {q : Seq} (h : Inv s) (hq : s.seq = q) (hk : rawPressureKnown q = true) :
    LatchedPressure s :=
  h.rawPressure (hq ▸ hk)

/-! The responses of the steps (R230). -/

theorem allowedResponse_ok (p : Params) : AllowedResponse p okResponse := by simp [AllowedResponse, okResponse]

theorem allowedResponse_value (p : Params) (v : Word64) : AllowedResponse p (valueResponse v) := by
  simp [AllowedResponse, valueResponse]

/-! The value read at M7. -/

/-- The shift of R148 leaves `16 + oss` bits. -/
theorem normaliseUP_lt (raw24 : Word24) (oss : BitVec 2) : (normaliseUP raw24 oss).toNat < 2 ^ upBits oss := by
  have hsum : 8 - oss.toNat + upBits oss = 24 := by have := oss.isLt; simp only [upBits]; omega
  rw [normaliseUP, BitVec.toNat_ushiftRight, Nat.shiftRight_eq_div_pow]
  exact Nat.div_lt_of_lt_mul (by rw [← Nat.pow_add, hsum]; exact raw24.isLt)

end Sys2Proof.Safety
end

section
/-! Construction meets the invariant and every step keeps it; in such a state the coming step reads no unwritten
register (10_state.md R46, R47, R48). -/

namespace Sys2Proof.Safety

open Sys2Proof Sys2Proof.Machine

/-- A failed transaction keeps the invariant, whatever BUF then holds (R66, R232). -/
theorem inv_busError {s : State} {e : Event} (h : Inv s)
    (hq : s.seq = .l1 ∨ s.seq = .m1 ∨ s.seq = .m3 ∨ s.seq = .m5 ∨ s.seq = .m7)
    (he : AllowedEvent s.params.devAddr e) (buf : Vector (Option Byte) 22) :
    Inv (State.emit (errorResponse .busError s.seq) { afterTransaction e s with buf := buf }) := by
  have hne : s.seq ≠ .m9 := fun h9 => by simp [h9] at hq
  rw [afterTransaction_eq]
  exact inv_emit (h.standing.record he) (h.noPressureElsewhere hne) ⟨fun _ => rfl, fun _ => rfl, hq⟩

/-- Every case of a step keeps the invariant (R48). -/
theorem inv_of_stepCase {s t : State} (h : Inv s) (hst : StepCase s t) : Inv t := by
  have hs := h.standing
  cases hst with
  | wait => exact h
  | construct p => exact inv_of_idle (standing_construct p) rfl rfl rfl
  | illegal _ _ _ hq | notCalibrated _ hq =>
    exact inv_emit hs (h.pHandoff_eq_none hq nofun) ⟨fun _ => rfl, fun _ => rfl, rfl⟩
  | config _ _ hq | unavailable _ _ hq => exact inv_emit hs (h.pHandoff_eq_none hq nofun) (allowedResponse_ok _)
  | answer _ v _ hq => exact inv_emit hs (h.pHandoff_eq_none hq nofun) (allowedResponse_value _ v)
  | acceptBegin _ hq => exact inv_of_parts hs nofun rfl (h.pHandoff_eq_none hq nofun)
  | acceptMeasure _ hq _ hv => exact inv_of_parts hs (fun _ => hv) rfl (h.pHandoff_eq_none hq nofun)
  | readBlock hq =>
    rw [afterTransaction_eq]
    exact h.advance hq rfl rfl rfl (hs.record (allowedEvent_calibrationRead _ _))
      ⟨h.pHandoff_eq_none hq nofun, fun i => by simp⟩
  | readTemperature hq =>
    rw [afterTransaction_eq]
    exact h.advance hq rfl rfl rfl (hs.record (allowedEvent_resultRead _ _ (.inl rfl)))
      ⟨h.pHandoff_eq_none hq nofun, rfl⟩
  | readPressure hq =>
    rw [afterTransaction_eq]
    exact h.advance hq rfl rfl rfl (hs.record (allowedEvent_resultRead _ _ (.inr rfl)))
      ⟨h.pHandoff_eq_none hq nofun, h.stagedTemperature hq rfl, _, rfl, normaliseUP_lt _ _⟩
  | readFails addr n hq =>
    obtain ⟨hq, rfl, rfl⟩ | ⟨hq, rfl, rfl⟩ | ⟨hq, rfl, rfl⟩ := hq
    · exact inv_busError h (.inl hq) (allowedEvent_failedRead _ (.inl ⟨rfl, rfl⟩)) _
    · exact inv_busError h (.inr (.inr (.inl hq))) (allowedEvent_failedRead _ (.inr ⟨rfl, .inl rfl⟩)) _
    · exact inv_busError h (.inr (.inr (.inr (.inr hq)))) (allowedEvent_failedRead _ (.inr ⟨rfl, .inr rfl⟩)) _
  | writeCommand v after hq =>
    rw [afterTransaction_eq]
    obtain ⟨hq, rfl, rfl⟩ | ⟨hq, rfl, rfl⟩ := hq
    · exact h.advance hq rfl rfl rfl (hs.record (allowedEvent_startT _ _)) (h.pHandoff_eq_none hq nofun)
    · exact h.advance hq rfl rfl rfl (hs.record (allowedEvent_startP _ s.oss _))
        ⟨h.pHandoff_eq_none hq nofun, h.stagedTemperature hq rfl⟩
  | writeFails v hq =>
    obtain ⟨hq, rfl⟩ | ⟨hq, rfl⟩ := hq
    · exact inv_busError h (.inr (.inl hq)) (allowedEvent_startT _ _) _
    · exact inv_busError h (.inr (.inr (.inr (.inl hq)))) (allowedEvent_startP _ _ _) _
  | delay ms after hq =>
    obtain ⟨hq, rfl, rfl⟩ | ⟨hq, rfl, rfl⟩ := hq
    · exact h.advance hq rfl rfl rfl (hs.record (.inl rfl)) (h.pHandoff_eq_none hq nofun)
    · exact h.advance hq rfl rfl rfl (hs.record (allowedEvent_pressureDelay _ s.oss))
        ⟨h.pHandoff_eq_none hq nofun, h.stagedTemperature hq rfl⟩
  | store words hq =>
    obtain ⟨-, hkept⟩ := hs
    exact inv_emit ⟨fun _ => rfl, hkept⟩ (h.pHandoff_eq_none hq nofun) (allowedResponse_ok _)
  | invalidBlock k hq hl =>
    exact inv_emit hs (h.pHandoff_eq_none hq nofun) ⟨fun _ => rfl, fun _ => rfl, rfl, (load_error hl).1⟩
  | temperature t b5 hq hr =>
    obtain ⟨words, hw⟩ := h.exists_cal hq rfl
    obtain ⟨ut, hu⟩ := h.exists_ut hq
    rw [State.readCAL_of_some hw, State.readUT_of_some hu] at hr
    exact h.advance hq rfl rfl rfl hs
      ⟨h.pHandoff_eq_none hq nofun, words, ut, t, b5, hw, hu, hr, rfl, rfl⟩
  | temperatureFault hq =>
    exact inv_emit hs (h.pHandoff_eq_none hq nofun) ⟨fun _ => rfl, fun _ => rfl, .inl rfl⟩
  | pressure p hq hr =>
    obtain ⟨words, ut, t, b5, hw, hu, hc, ht, hb⟩ := h.stagedTemperature hq rfl
    obtain ⟨up, hup, hlt⟩ := h.latchedPressure hq rfl
    rw [State.readCAL_of_some hw, State.readUP_of_some hup, State.readB5_of_some hb] at hr
    exact h.advance hq rfl rfl rfl hs
      ⟨⟨words, up, b5, p, hw, hup, hb, hr, rfl⟩, ⟨words, ut, t, b5, hw, hu, hc, ht, hb⟩, up, hup, hlt⟩
  | pressureFault hq =>
    exact inv_emit hs (h.pHandoff_eq_none hq nofun) ⟨fun _ => rfl, fun _ => rfl, .inr rfl⟩
  | publish hq =>
    obtain ⟨hcal, -, htrace, hresp⟩ := hs
    exact inv_emit ⟨hcal, fun _ => ⟨rfl, rfl⟩, htrace, hresp⟩ rfl (allowedResponse_ok _)

/-- Settles O55: whatever a step does, one of the cases of `StepCase`, it keeps the invariant. -/
theorem stepKeepsInvariant : Obligations.StepKeepsInvariant := fun _ _ h hst => inv_of_stepCase h (step_cases hst)

/-- Settles O54: after construction SEQ is IDLE, CMD and the handed pressure are empty, and nothing is recorded. -/
theorem invariantAtReset : Obligations.InvariantAtReset :=
  have hinv (p : Params) : Inv (State.construct p) := inv_of_idle (standing_construct p) rfl rfl rfl
  ⟨hinv, hinv _⟩

/-- Settles O56: each clause is the clause of the invariant for that step. -/
theorem onlyWrittenRegistersAreRead : Obligations.OnlyWrittenRegistersAreRead := fun s h =>
  { atL2 := fun hq i => Option.isSome_iff_ne_none.1 (h.blockRead hq i)
    atM4 := fun hq => by
      obtain ⟨_, hut⟩ := h.exists_ut hq
      obtain ⟨_, hcal⟩ := h.exists_cal hq rfl
      simp [hut, hcal]
    atM8 := fun hq => by
      obtain ⟨_, _, _, _, hcal, -, -, -, hb5⟩ := h.stagedTemperature hq rfl
      obtain ⟨_, hup, -⟩ := h.latchedPressure hq rfl
      simp [hup, hb5, hcal]
    atM9 := fun hq => by
      obtain ⟨_, _, _, _, -, -, -, hstage, -⟩ := h.stagedTemperature hq rfl
      obtain ⟨_, _, _, _, -, -, -, -, hp⟩ := h.pressure hq
      simp [hstage, hp]
    atGetT := fun _ hv => Option.isSome_iff_ne_none.1 (h.resultsWritten hv).1
    atGetP := fun _ hv => Option.isSome_iff_ne_none.1 (h.resultsWritten hv).2 }

end Sys2Proof.Safety
end

section
/-! What a step does to SEQ, OSS and the results (10_state.md R34, R36, R41), what it reads (R46), and the views and the
reset value of the state (R32, R37, R47). -/

namespace Sys2Proof.Machine

open Sys2Proof Sys2Proof.Safety

/-! The frame of a step. -/

/-- A step from an idle port, a response, or the next step of the command: there is no other way for SEQ (R36, R130). -/
theorem StepCase.seq_cases {s t : State} (h : StepCase s t) :
    s.seq = .idle ∨ t.seq = .idle ∨ successor s.seq = some t.seq := by
  cases h with
  | wait hq | construct _ _ hq | acceptBegin _ hq | acceptMeasure _ hq => exact .inl hq
  | illegal | notCalibrated | config | unavailable | answer | readFails | writeFails | store | invalidBlock
  | temperatureFault | pressureFault | publish => exact .inr (.inl rfl)
  | readBlock hq | readTemperature hq | readPressure hq | temperature _ _ hq | pressure _ hq =>
    exact .inr (.inr (by rw [hq]; rfl))
  | writeCommand _ _ hq =>
    obtain ⟨hq, -, rfl⟩ | ⟨hq, -, rfl⟩ := hq <;> exact .inr (.inr (by rw [hq]; rfl))
  | delay _ _ hq =>
    obtain ⟨hq, -, rfl⟩ | ⟨hq, -, rfl⟩ := hq <;> exact .inr (.inr (by rw [hq]; rfl))

/-- Settles O10: away from IDLE a step answers, and is then idle, or goes to the successor. -/
theorem sequencerOrderIsFixed : Obligations.SequencerOrderIsFixed := fun _ _ hne h =>
  (step_cases h).seq_cases.resolve_left hne

/-- Settles O40: CONFIG is the only case of a step, construction aside, that writes OSS. -/
theorem ossChangesOnlyByConfig : Obligations.OssChangesOnlyByConfig := by
  intro s t hnc h
  cases step_cases h with
  | construct p rest hq hp => exact absurd ⟨hq, p, rest, hp⟩ hnc
  | config oss rest hq hp => exact .inr ⟨oss, ⟨hq, rest, hp⟩, rfl⟩
  | _ => exact .inl (by simp [afterTransaction])

/-- Settles O41: M9 is the only case of a step, construction aside, that writes the results. -/
theorem resultsChangeOnlyAtPublish : Obligations.ResultsChangeOnlyAtPublish := by
  intro s t hnc hne h
  cases step_cases h with
  | construct p rest hq hp => exact absurd ⟨hq, p, rest, hp⟩ hnc
  | publish hq => exact absurd hq hne
  | _ => simp [afterTransaction]

/-! The steps that read registers (R46). -/

theorem exec_begin_l2 {s : State} (hq : s.seq = .l2) : exec .begin s = .next (stepL2 s) := by
  simp [exec, execBegin, hq]

theorem exec_measure_m4 {s : State} (hq : s.seq = .m4) : exec .measure s = .next (stepM4 s) := by
  simp [exec, execMeasure, hq]

theorem exec_measure_m8 {s : State} (hq : s.seq = .m8) : exec .measure s = .next (stepM8 s) := by
  simp [exec, execMeasure, hq]

theorem exec_measure_m9 {s : State} (hq : s.seq = .m9) : exec .measure s = .next (stepM9 s) := by
  simp [exec, execMeasure, hq]

theorem exec_getT_idle {s : State} (hq : s.seq = .idle) :
    exec .getT s = .next (answerResult s.readResT10 (s.accept (encode .getT))) := by
  rw [exec, execGetT, acceptOrHold_idle hq]
  rfl

theorem exec_getP_idle {s : State} (hq : s.seq = .idle) :
    exec .getP s = .next (answerResult s.readResP (s.accept (encode .getP))) := by
  rw [exec, execGetP, acceptOrHold_idle hq]
  rfl

/-- The block that L2 reads is the one whose bytes are the values read from BUF. -/
theorem eq_readBUF {s : State} {raw : Vector Byte 22}
    (h : ∀ i : Fin 22, raw[i] = s.buf[i].getD (Config.unwrittenBUF i)) : raw = s.readBUF :=
  Vector.ext fun i hi => (h ⟨i, hi⟩).trans (s.getElem_readBUF ⟨i, hi⟩).symm

/-- A getter answers its value if a result is valid (R220, R221). -/
theorem answerResult_responses {s : State} (h : s.resValid = true) (v : Word64) :
    (answerResult v s).responses = s.responses ++ [valueResponse v] := by
  rw [answerResult_value h, State.emit_responses]

/-- Settles O53: every `read` function of the state is the `getD` of the statement, at the step that uses it. -/
theorem unwrittenReadsGoOn : Obligations.UnwrittenReadsGoOn := by
  intro s words ut up b5
  refine ⟨fun hq raw stored hraw hl => ?_, fun hq t10 t5 hr => ?_, fun hq p hr => ?_, fun hq => ?_,
    fun hq hv => ?_, fun hq hv => ?_⟩
  · have hl' : load s.params.calSentinelCheck s.readBUF = .ok stored := eq_readBUF hraw ▸ hl
    exact ⟨_, exec_begin_l2 hq, by simp [stepL2, commitBlock, hl'], by simp [stepL2, commitBlock, hl']⟩
  · have hr' : compT s.readCAL s.readUT = some (t10, t5) := hr
    rw [exec_measure_m4 hq, stepM4, hr', stageTemperature]
  · have hr' : compP s.readCAL s.readUP s.readB5 s.oss = some p := hr
    rw [exec_measure_m8 hq, stepM8, hr', handPressure]
  · exact ⟨_, exec_measure_m9 hq, rfl, rfl, rfl⟩
  · exact ⟨_, exec_getT_idle hq, answerResult_responses hv _⟩
  · exact ⟨_, exec_getP_idle hq, answerResult_responses hv _⟩

/-! The views of the state. -/

theorem loading_iff (q : Seq) : q.loading = true ↔ q = .l1 ∨ q = .l2 := by
  cases q <;> decide

/-- The steps at which no conversion is in progress (R37). -/
theorem phase_resting {s : State} (h : s.seq = .idle ∨ s.seq.loading = true ∨ s.seq = .m9) :
    s.phase = restingPhase s.calValid := by
  rw [loading_iff] at h
  obtain hq | (hq | hq) | hq := h <;> simp [State.phase, hq]

/-- Settles O11: the two resting phases by `phase_resting`, the two measuring ones step by step. -/
theorem stateIsAView : Obligations.StateIsAView := by
  refine fun s => ⟨fun hq hv => ?_, fun hq hv => ?_, ?_, ?_⟩
  · rw [phase_resting (hq.imp_right .inl), hv]; rfl
  · rw [phase_resting hq, hv]; rfl
  · rintro (hq | hq | hq | hq) <;> simp [State.phase, hq]
  · rintro (hq | hq | hq | hq) <;> simp [State.phase, hq]

theorem construct_buf (p : Params) : (State.construct p).buf = Vector.replicate 22 none := rfl

/-- Settles O12: `State.construct` writes these values. -/
theorem constructionResetsCoreState : Obligations.ConstructionResetsCoreState := fun p =>
  ⟨rfl, rfl, rfl, rfl, fun i => by simp [construct_buf], rfl, rfl, rfl, rfl, rfl, rfl, rfl, rfl⟩

/-- Settles O18: each view is `sext16` or `zext` of its word. -/
theorem typedViewsExtendByType : Obligations.TypedViewsExtendByType := fun _ =>
  ⟨sext16_toInt _, sext16_toInt _, sext16_toInt _, zext16_toInt _, zext16_toInt _, zext16_toInt _, sext16_toInt _,
    sext16_toInt _, sext16_toInt _, sext16_toInt _, sext16_toInt _⟩

end Sys2Proof.Machine
end

section
/-! The bus: what a transaction does, which event a step may issue, and that no step changes the parameters
(20_memory.md R61, R63, R66, R67, R70). -/

namespace Sys2Proof.Machine

open Sys2Proof Sys2Proof.Safety

/-! One transaction (R66, R67). -/

/-- A write is one transaction that fails exactly with the transport (R67). -/
theorem memWrite_eq (addr v : Byte) (s : State) :
    memWrite addr v s = (!(nextAnswer s).busError,
      { s.takeAnswer with trace := s.trace ++ [.wr s.params.devAddr addr v (!(nextAnswer s).busError)] }) := by
  simp [memWrite, State.record]

/-- Settles O15: the event is the one that `memWrite_eq` records. -/
theorem writeSendsAddressThenData : Obligations.WriteSendsAddressThenData := fun addr v s =>
  ⟨_, memWrite_eq addr v s, rfl, rfl⟩

/-- Beside BUF and the trace a transaction only takes the transport's answer (R68). -/
theorem takeAnswer_restore (s : State) (buf : Vector (Option Byte) 22) (trace : List Event) :
    { { s.takeAnswer with buf := buf, trace := trace } with buf := s.buf, trace := s.trace } = s.takeAnswer := by
  rw [← s.takeAnswer_buf, ← s.takeAnswer_trace]

/-- Settles O14: `memRead_ok` if the transport returns no error and `n` bytes, else `memRead_fail`. -/
theorem readHasThreeOutcomes : Obligations.ReadHasThreeOutcomes := by
  intro addr n s _
  dsimp only
  rw [← readOk_iff]
  cases ha : readOk n (nextAnswer s) with
  | true =>
    rw [memRead_ok ha]
    exact ⟨fun _ => ⟨rfl, getElem_bufReceive _ _ _, rfl⟩, fun hn => absurd rfl hn, takeAnswer_restore _ _ _⟩
  | false =>
    rw [memRead_fail ha]
    exact ⟨nofun, fun _ => ⟨rfl, rfl⟩, takeAnswer_restore _ _ _⟩

/-! The event of a step (R70, R134, R146). -/

/-- A step other than a construction leaves the trace, or adds to it the event of its own SEQ. -/
theorem StepCase.trace_cases {s t : State} (h : StepCase s t) (hnc : ¬ TakesConstruction s) :
    t.trace = s.trace ∨ ∃ e, t.trace = s.trace ++ [e] ∧ EventAt s.seq s.params.devAddr s.oss e := by
  cases h with
  | construct p rest hq hp => exact absurd ⟨hq, p, rest, hp⟩ hnc
  | wait | illegal | acceptBegin | acceptMeasure | notCalibrated | config | unavailable | answer | store | invalidBlock
  | temperature | temperatureFault | pressure | pressureFault | publish => exact .inl rfl
  | readBlock hq | readTemperature hq | readPressure hq => exact .inr ⟨_, rfl, by rw [hq]; exact ⟨_, rfl⟩⟩
  | readFails addr n hq =>
    refine .inr ⟨.rd s.params.devAddr addr n none, rfl, ?_⟩
    obtain ⟨hq, rfl, rfl⟩ | ⟨hq, rfl, rfl⟩ | ⟨hq, rfl, rfl⟩ := hq <;> rw [hq] <;> exact ⟨_, rfl⟩
  | writeCommand v _ hq =>
    refine .inr ⟨.wr s.params.devAddr 0xF4 v true, rfl, ?_⟩
    obtain ⟨hq, rfl, -⟩ | ⟨hq, rfl, -⟩ := hq <;> rw [hq] <;> exact ⟨_, rfl⟩
  | writeFails v hq =>
    refine .inr ⟨.wr s.params.devAddr 0xF4 v false, rfl, ?_⟩
    obtain ⟨hq, rfl⟩ | ⟨hq, rfl⟩ := hq <;> rw [hq] <;> exact ⟨_, rfl⟩
  | delay ms _ hq =>
    refine .inr ⟨.dly ms, rfl, ?_⟩
    obtain ⟨hq, rfl, -⟩ | ⟨hq, rfl, -⟩ := hq <;> rw [hq] <;> rfl

/-- Settles O16: case by case of the step, `StepCase.trace_cases`. -/
theorem eachStepIssuesItsOwnEvent : Obligations.EachStepIssuesItsOwnEvent := fun _ _ hnc h =>
  (step_cases h).trace_cases hnc

/-- Settles O17: construction is the only case of a step that writes the parameters. -/
theorem parametersAreConstant : Obligations.ParametersAreConstant := by
  intro s t hnc h
  cases step_cases h with
  | construct p rest hq hp => exact absurd ⟨hq, p, rest, hp⟩ hnc
  | _ => simp [afterTransaction]

end Sys2Proof.Machine
end

section
/-! The encoding: decoding and encoding undo each other on each port, the illegal words, the response word, and the
assembler (30_encoding.md R91 to R99). -/

namespace Sys2Proof.Machine

open Sys2Proof

/-! Decoding and encoding (R91, R97). -/

/-- Decoding undoes encoding on the port where the instruction may stand. -/
theorem decode_encode {p : Port} {i : Instr} (h : i.wellFormed p = true) : decode p (encode i) = .ok i := by
  cases p <;> cases i <;> simp only [Instr.wellFormed, Bool.false_eq_true] at h
  case host.config oss => revert oss; decide
  case bus.startP oss => revert oss; decide
  all_goals rfl

/-- A byte whose low six bits are those of START_P is START_P with the exponent in its top bits (R97). -/
theorem encode_startP_extract {v : Byte} (h : v.extractLsb' 0 6 = 0x34) : encode (.startP (v.extractLsb' 6 2)) = v := by
  revert v
  decide

/-- A byte that decodes on the bus port is the encoding of a device command. -/
theorem decodeBus_cases {v : Byte} {i : Instr} (h : decode .bus v = .ok i) :
    encode i = v ∧ (i = .startT ∨ ∃ oss, i = .startP oss) := by
  rw [decode, decodeBus] at h
  split_ifs at h with ht hp <;> cases h
  · exact ⟨ht.symm, .inl rfl⟩
  · exact ⟨encode_startP_extract hp, .inr ⟨_, rfl⟩⟩

/-- What a port accepts is an instruction that may stand there, and its encoding. -/
theorem wellFormed_and_encode_of_decode {p : Port} {w : Byte} {i : Instr} (h : decode p w = .ok i) :
    i.wellFormed p = true ∧ encode i = w := by
  cases p with
  | host =>
    obtain ⟨he, rfl | rfl | ⟨_, rfl⟩ | rfl | rfl⟩ := decodeHost_cases h <;> exact ⟨rfl, he⟩
  | bus =>
    obtain ⟨he, rfl | ⟨_, rfl⟩⟩ := decodeBus_cases h <;> exact ⟨rfl, he⟩

/-- The encoding determines the instruction, whatever the port: the opcode table reads it back. -/
theorem decodeTableWord_encode (i : Instr) : decodeTableWord 8 (encode i).toNat = some i := by
  cases i with
  | begin => exact Laws.TableWord.begin.1
  | measure => exact Laws.TableWord.measure.1
  | config oss => exact (Laws.TableWord.config oss).1
  | getT => exact Laws.TableWord.getT.1
  | getP => exact Laws.TableWord.getP.1
  | startT => exact Laws.TableWord.startT.1
  | startP oss => exact (Laws.TableWord.startP oss).1

theorem encode_injective : Function.Injective encode := fun i j h =>
  Option.some.inj (by rw [← decodeTableWord_encode i, h, decodeTableWord_encode])

/-- A port refuses the encoding of an instruction that may not stand on it: what it accepts there would be another
instruction with the same encoding. -/
theorem decode_encode_error {p : Port} {i : Instr} (h : i.wellFormed p = false) :
    ∃ e, decode p (encode i) = .error e := by
  cases hd : decode p (encode i) with
  | error e => exact ⟨e, rfl⟩
  | ok j =>
    obtain ⟨hw, he⟩ := wellFormed_and_encode_of_decode hd
    rw [encode_injective he, h] at hw
    exact absurd hw Bool.false_ne_true

/-- Settles O2: the three clauses are `decode_encode`, `decode_encode_error` and `wellFormed_and_encode_of_decode`. -/
theorem decodeAndEncodeAgree : Obligations.DecodeAndEncodeAgree := fun _ _ =>
  ⟨decode_encode, decode_encode_error, fun _ => wellFormed_and_encode_of_decode⟩

/-- Settles O1: each sample is the encoding of its instruction, which may stand on that port. -/
theorem sampleWordsDecode : Obligations.SampleWordsDecode :=
  ⟨decode_encode (i := .begin) rfl, decode_encode (i := .measure) rfl, decode_encode (i := .config 0) rfl,
    decode_encode (i := .config 3) rfl, decode_encode (i := .getT) rfl, decode_encode (i := .getP) rfl,
    decode_encode (i := .startT) rfl, decode_encode (i := .startP 0) rfl, decode_encode (i := .startP 1) rfl,
    decode_encode (i := .startP 2) rfl, decode_encode (i := .startP 3) rfl⟩

/-! Illegal words (R95). -/

theorem withoutOperand_error_iff (w : Byte) (i : Instr) : (∃ e, withoutOperand w i = .error e) ↔ opdField w ≠ 0 := by
  unfold withoutOperand
  split_ifs with h
  · exact iff_of_false nofun (not_not.2 h)
  · exact iff_of_true ⟨_, rfl⟩ h

/-- The host port refuses a word for one of the three reasons of R95, and for no other. -/
theorem decodeHost_error_iff (w : Byte) :
    (∃ e, decode .host w = .error e) ↔
      (opField w = 0 ∨ 6 ≤ (opField w).toNat ∨ rsvField w ≠ 0 ∨ (opField w ≠ 3 ∧ opdField w ≠ 0)) := by
  rw [decode, decodeHost]
  split_ifs with hop hrsv h1 h2 h3 h4
  · exact iff_of_true ⟨_, rfl⟩ (by tauto)
  · exact iff_of_true ⟨_, rfl⟩ (by tauto)
  · have h3 : opField w ≠ 3 := by rw [h1]; decide
    rw [withoutOperand_error_iff]; tauto
  · have h3 : opField w ≠ 3 := by rw [h2]; decide
    rw [withoutOperand_error_iff]; tauto
  · exact iff_of_false nofun (by tauto)
  · rw [withoutOperand_error_iff]; tauto
  · rw [withoutOperand_error_iff]; tauto

/-- Settles O3: `decodeHost_error_iff`, with the fields of the word written out. -/
theorem illegalWordsExactly : Obligations.IllegalWordsExactly := decodeHost_error_iff

/-- Beside the response the answer to an illegal word only empties CMD (R95). -/
theorem illegalCommand_eq {s : State} (hq : s.seq = .idle) (w : Byte) :
    illegalCommand w s =
      { s with cmd := none, responses := s.responses ++ [errorResponse .illegalCommand .idle] } := by
  simp only [illegalCommand, raiseError, State.emit, State.accept, hq]

/-- Settles O4: the word does not decode, so the ready port answers it with the error response alone. -/
theorem illegalWordOnlyAnswers : Obligations.IllegalWordOnlyAnswers := by
  intro s w rest hq hp hw
  obtain ⟨e, hd⟩ := (decodeHost_error_iff w).2 hw
  refine ⟨none, ?_⟩
  rw [step, fetch_illegal hq hp hd]
  exact congrArg Host.Outcome.next (illegalCommand_eq (s := { s with hostPort := rest }) hq w)

/-! The response word (R93). -/

theorem word_status (r : Response) : r.word.extractLsb' 0 4 = r.status.code := BitVec.extractLsb'_append_eq_right

theorem word_step (r : Response) : r.word.extractLsb' 4 4 = r.step.code := by
  rw [Response.word, BitVec.extractLsb'_append_eq_of_le (by decide)]
  exact BitVec.extractLsb'_append_eq_right

theorem word_valid (r : Response) : r.word.extractLsb' 8 1 = BitVec.ofBool r.valid := by
  rw [Response.word, BitVec.extractLsb'_append_eq_of_le (by decide), BitVec.extractLsb'_append_eq_of_le (by decide)]
  exact BitVec.extractLsb'_append_eq_right

theorem word_value (r : Response) : r.word.extractLsb' 9 64 = r.value := by
  rw [Response.word, BitVec.extractLsb'_append_eq_of_le (by decide), BitVec.extractLsb'_append_eq_of_le (by decide)]
  exact BitVec.extractLsb'_append_eq_left

/-- Settles O5: the four fields by their lemmas; the codes are those of the tables. -/
theorem responseWordFields : Obligations.ResponseWordFields :=
  ⟨fun r => ⟨word_status r, word_step r, word_valid r, word_value r⟩, rfl, rfl⟩

/-! The assembler (R99). -/

/-- The line of CONFIG, for each of the four exponents. -/
theorem assemble_config (oss : BitVec 2) :
    ∃ line, lineOf (.config oss) = some line ∧ assemble [line] = some [encode (.config oss)] := by
  have key : ∀ oss : BitVec 2, (lineOf (.config oss)).bind (assemble [·]) = some [encode (.config oss)] := by decide
  exact ⟨_, rfl, key oss⟩

/-- Settles O6: the five host commands have a line, which the assembler reads back, and the device commands none. -/
theorem assemblerEmitsWords : Obligations.AssemblerEmitsWords := by
  intro i
  cases i with
  | begin | measure | getT | getP => exact ⟨fun _ => ⟨_, rfl, by decide⟩, nofun⟩
  | config oss => exact ⟨fun _ => assemble_config oss, nofun⟩
  | startT | startP _ => exact ⟨nofun, fun _ => rfl⟩

end Sys2Proof.Machine
end

section
/-! What a step runs, the port that is not ready, and the answers of the instructions (30_encoding.md R92, R93;
60_exceptions.md R234; 70_reset_and_hazards.md R272). -/

namespace Sys2Proof.Machine

open Sys2Proof Sys2Proof.Safety

/-! What a step runs (R92, R36). -/

theorem step_of_fetch_run {s s' : State} {i : Instr} (h : fetch s = .run i s') : step s = exec i s' := by
  rw [step, h]

/-- The steps of BEGIN (R112). -/
theorem fetch_loading {s : State} (h : s.seq.loading = true) : fetch s = .run .begin s := by
  obtain hq | hq := (loading_iff _).1 h <;> simp only [fetch, hq]

/-- The steps of a cycle that issue no device command (R130). -/
theorem fetch_measuring {s : State} (h : s.seq.measuring = true) (h1 : s.seq ≠ .m1) (h5 : s.seq ≠ .m5) :
    fetch s = .run .measure s := by
  cases hq : s.seq <;> simp only [hq, Seq.measuring, Bool.false_eq_true] at h
  case m1 => exact absurd hq h1
  case m5 => exact absurd hq h5
  all_goals simp only [fetch, hq]

/-- Settles O7: each clause is what `fetch` finds at that SEQ. -/
theorem stepRunsTheInstruction : Obligations.StepRunsTheInstruction := fun s =>
  ⟨fun _ _ _ hq hp hd => step_of_fetch_run (fetch_command hq hp hd),
    fun hq hp => by simp only [step, fetch, hq, fetchFromHost, hp],
    fun hl => step_of_fetch_run (fetch_loading hl),
    fun hq => step_of_fetch_run (by simp only [fetch, hq]),
    fun hq => step_of_fetch_run (by simp only [fetch, hq]),
    fun hm h1 h5 => step_of_fetch_run (fetch_measuring hm h1 h5)⟩

/-! The port that is not ready (R92). -/

/-- Settles O8: every case of a step that touches the host port starts at IDLE. -/
theorem busyPortHoldsMoves : Obligations.BusyPortHoldsMoves := by
  intro s t hne h
  cases step_cases h with
  | construct _ _ hq | illegal _ _ _ hq | acceptBegin _ hq | acceptMeasure _ hq | notCalibrated _ hq | config _ _ hq
  | unavailable _ _ hq | answer _ _ _ hq => exact absurd hq hne
  | _ => simp [afterTransaction]

/-! The end of a command (R93, R272). -/

/-- A step away from IDLE answers and is then idle without a command, or goes on within the command. -/
theorem StepCase.response_cases {s t : State} (h : StepCase s t) (hne : s.seq ≠ .idle) :
    (t.seq = .idle ∧ t.cmd = none ∧ ∃ r, t.responses = s.responses ++ [r]) ∨
    (t.seq ≠ .idle ∧ t.cmd = s.cmd ∧ t.responses = s.responses) := by
  cases h with
  | wait hq | construct _ _ hq | illegal _ _ _ hq | acceptBegin _ hq | acceptMeasure _ hq | notCalibrated _ hq
  | config _ _ hq | unavailable _ _ hq | answer _ _ _ hq => exact absurd hq hne
  | readFails | writeFails => exact .inl ⟨rfl, rfl, errorResponse .busError s.seq, by simp [afterTransaction]⟩
  | store | invalidBlock | temperatureFault | pressureFault | publish => exact .inl ⟨rfl, rfl, _, rfl⟩
  | readBlock | readTemperature | readPressure => exact .inr (by simp [afterTransaction])
  | temperature | pressure => exact .inr ⟨nofun, rfl, rfl⟩
  | writeCommand _ _ hq => obtain ⟨-, -, rfl⟩ | ⟨-, -, rfl⟩ := hq <;> exact .inr (by simp [afterTransaction])
  | delay _ _ hq => obtain ⟨-, -, rfl⟩ | ⟨-, -, rfl⟩ := hq <;> exact .inr ⟨nofun, rfl, rfl⟩

/-- Settles O52: case by case of the step, `StepCase.response_cases`. -/
theorem oneResponseEndsACommand : Obligations.OneResponseEndsACommand := fun _ _ hne h =>
  (step_cases h).response_cases hne

/-! What an instruction does, whichever SEQ it meets. -/

/-- An instruction runs at once if it is a device command or the command in progress; any other goes through the
handshake of the host port (R92). -/
theorem exec_cases (i : Instr) (s : State) :
    ((i.wellFormed .host = false ∨ (i = .begin ∧ s.seq.loading = true) ∨ (i = .measure ∧ s.seq.measuring = true)) ∧
      ∃ t, exec i s = .next t) ∨
    ∃ accept : State → State, exec i s = acceptOrHold i s fun s' => .next (accept s') := by
  cases i with
  | begin =>
    cases hq : s.seq <;> simp only [exec, execBegin, hq]
    case l1 | l2 => exact .inl ⟨.inr (.inl ⟨trivial, rfl⟩), _, rfl⟩
    all_goals exact .inr ⟨_, rfl⟩
  | measure =>
    cases hq : s.seq <;> simp only [exec, execMeasure, hq]
    case idle | l1 | l2 => exact .inr ⟨_, rfl⟩
    all_goals exact .inl ⟨.inr (.inr ⟨trivial, rfl⟩), _, rfl⟩
  | config oss => exact .inr ⟨fun s' => State.emit okResponse { s' with oss := oss }, rfl⟩
  | getT => exact .inr ⟨fun s' => answerResult s'.readResT10 s', rfl⟩
  | getP => exact .inr ⟨fun s' => answerResult s'.readResP s', rfl⟩
  | startT | startP => exact .inl ⟨.inl rfl, _, rfl⟩

/-- Settles O9: a command that is not in progress meets the handshake of a port that is not ready. -/
theorem busyCommandIsHeld : Obligations.BusyCommandIsHeld := by
  intro s i hw hne hb hm
  obtain ⟨hf | hl | hc, -⟩ | ⟨_, he⟩ := exec_cases i s
  · simp [hf] at hw
  · exact absurd hl hb
  · exact absurd hc hm
  · rw [he, acceptOrHold_busy hne, State.present]

/-- Settles O58: an instruction that runs at once answers, and so does the handshake, ready or not. -/
theorem everyInstructionCompletes : Obligations.EveryInstructionCompletes := by
  intro s i
  obtain ⟨-, h⟩ | ⟨_, he⟩ := exec_cases i s
  · exact h
  · by_cases hq : s.seq = .idle
    · exact ⟨_, he.trans (acceptOrHold_idle hq ..)⟩
    · exact ⟨_, he.trans (acceptOrHold_busy hq ..)⟩

end Sys2Proof.Machine
end

section
/-! The calibration store: what `load` gives, each step of BEGIN, the whole command, and what no other step does to the
store (40_calibration_store.md). -/

namespace Sys2Proof.Machine

open Sys2Proof Sys2Proof.Safety

/-! `load` (R110, R111). -/

/-- Word `i` of a block is its bytes `2 i` and `2 i + 1`, the most significant first (R64). -/
theorem blockWords_toNat (raw : Vector Byte 22) (i : Fin 11) :
    ((blockWords raw)[i]).toNat =
      256 * (raw[2 * i.val]'(by omega)).toNat + (raw[2 * i.val + 1]'(by omega)).toNat := by
  rw [← bytes16_toNat]
  fin_cases i <;> rfl

/-- A sentinel word, read as an unsigned value (R110). -/
theorem isSentinel_iff (w : Word16) : isSentinel w = true ↔ w.toNat = 0x0000 ∨ w.toNat = 0xFFFF := by
  simp [isSentinel, ← BitVec.toNat_inj]

theorem load_unchecked (raw : Vector Byte 22) : load false raw = .ok (blockWords raw) := rfl

theorem eq_blockWords_of_load {check : Bool} {raw : Vector Byte 22} {words : CalWords}
    (h : load check raw = .ok words) : words = blockWords raw := by
  unfold load at h
  split at h <;> cases h
  rfl

theorem load_checked_error_iff (raw : Vector Byte 22) (k : Nat) :
    load true raw = .error k ↔ (blockWords raw).toList.findIdx? isSentinel = some k := by
  cases hf : (blockWords raw).toList.findIdx? isSentinel <;> simp [load, hf]

/-- The index that `load` reports is the lowest one of a sentinel word. -/
theorem load_checked_error_iff_lowest (raw : Vector Byte 22) (k : Nat) :
    load true raw = .error k ↔
      ∃ h : k < 11, isSentinel (blockWords raw)[k] = true ∧
        ∀ j : Fin 11, j.val < k → ¬ isSentinel (blockWords raw)[j] = true := by
  rw [load_checked_error_iff, List.findIdx?_eq_some_iff_getElem]
  constructor
  · rintro ⟨hk, hs, hlow⟩
    exact ⟨by simpa using hk, hs, fun j hj => hlow j.val hj⟩
  · rintro ⟨hk, hs, hlow⟩
    exact ⟨by simpa using hk, hs, fun j hj => hlow ⟨j, hj.trans hk⟩ hj⟩

/-- Settles O19: `load` gives `blockWords`, whose words are the 11 of the statement, or the lowest index of a
sentinel. -/
theorem loadDecodesAndChecks : Obligations.LoadDecodesAndChecks := by
  intro raw word
  have hword : ∀ i : Fin 11, ((blockWords raw)[i]).toNat = word i := blockWords_toNat raw
  have hsentinel : ∀ i : Fin 11, isSentinel (blockWords raw)[i] = true ↔ word i = 0x0000 ∨ word i = 0xFFFF :=
    fun i => by rw [isSentinel_iff, hword]
  refine ⟨fun check words hl i => eq_blockWords_of_load hl ▸ hword i, ⟨_, load_unchecked raw⟩, fun k => ?_⟩
  simp only [load_checked_error_iff_lowest, hsentinel, not_or]
  exact exists_congr fun hk => and_congr_left' (hsentinel ⟨k, hk⟩)

/-! The steps of BEGIN (R112 to R114). -/

/-- Settles O20: BEGIN at the ready port is accepted, whatever STATE is. -/
theorem beginIsAccepted : Obligations.BeginIsAccepted := by
  intro s hq
  simp only [exec, execBegin, hq, acceptOrHold_idle]
  rfl

theorem exec_begin_l1 {s : State} (hq : s.seq = .l1) : exec .begin s = .next (stepL1 s) := by
  simp [exec, execBegin, hq]

theorem stepL1_ok {s : State} (h : readOk 22 (nextAnswer s) = true) :
    stepL1 s = { s.takeAnswer with
      buf := (nextAnswer s).bytes.map some, seq := .l2,
      trace := s.trace ++ [.rd s.params.devAddr 0xAA 22 (some (nextAnswer s).bytes.toList)] } := by
  simp [stepL1, memRead_ok h, bufReceive_all, calibrationReg, List.take_of_length_le]

theorem stepL1_fail {s : State} (h : readOk 22 (nextAnswer s) = false) :
    stepL1 s = State.emit (errorResponse .busError .l1) { s.takeAnswer with
      buf := bufLeftover (nextAnswer s).bytes,
      trace := s.trace ++ [.rd s.params.devAddr 0xAA 22 none] } := by
  rw [stepL1, memRead_fail h]
  rfl

/-- Settles O21: `stepL1_ok` if the transport returns no error and 22 bytes, else `stepL1_fail`. -/
theorem beginReadsBlock : Obligations.BeginReadsBlock := by
  intro s hq
  dsimp only
  rw [← readOk_iff, exec_begin_l1 hq]
  refine ⟨fun ha => by rw [stepL1_ok ha], fun ha => ⟨bufLeftover (nextAnswer s).bytes, none, ?_⟩⟩
  rw [stepL1_fail (Bool.eq_false_of_not_eq_true ha), State.emit, State.takeAnswer_responses]
  rfl

theorem commitBlock_ok {s : State} {raw : Vector Byte 22} {words : CalWords}
    (h : load s.params.calSentinelCheck raw = .ok words) :
    commitBlock raw s = State.emit okResponse { s with cal := some words, calValid := true } := by
  rw [commitBlock, h]
  rfl

theorem commitBlock_error {s : State} {raw : Vector Byte 22} {k : Nat}
    (h : load s.params.calSentinelCheck raw = .error k) :
    commitBlock raw s = s.emit (errorResponse .calibrationInvalid .l2) := by
  rw [commitBlock, h]
  rfl

/-- Settles O22: L2 commits the block in BUF, all 11 words or none. -/
theorem beginCommitsBlock : Obligations.BeginCommitsBlock := by
  intro s raw hq hbuf
  rw [exec_begin_l2 hq, stepL2, State.readBUF_of_written hbuf]
  exact ⟨fun words hl => ⟨none, by rw [commitBlock_ok hl]; rfl⟩, fun k hl => ⟨none, by rw [commitBlock_error hl]; rfl⟩⟩

/-! The whole BEGIN (R115, R116). -/

/-- A transaction takes one answer of the transport and changes nothing else (R68). -/
theorem State.takeAnswer_eq (s : State) :
    s.takeAnswer = { s with
      busIn := s.busIn.tail, busDraws := if s.busIn = [] then s.busDraws + 1 else s.busDraws } := by
  cases hb : s.busIn <;> simp [State.takeAnswer, hb]

/-- The state after BEGIN has been accepted, with `rest` still pending (R112). -/
def beginAccepted (rest : List HostMove) (s : State) : State :=
  { s with hostPort := rest, cmd := some 0x10, seq := .l1 }

theorem step_acceptBegin {s : State} {rest : List HostMove} (hq : s.seq = .idle)
    (hp : s.hostPort = .command 0x10 :: rest) : step s = .next (beginAccepted rest s) :=
  (step_of_fetch_run (fetch_command hq hp rfl)).trans (beginIsAccepted { s with hostPort := rest } hq)

theorem step_l1 {s : State} (hq : s.seq = .l1) : step s = .next (stepL1 s) :=
  (step_of_fetch_run (fetch_loading ((loading_iff _).2 (.inl hq)))).trans (exec_begin_l1 hq)

theorem step_l2 {s : State} (hq : s.seq = .l2) : step s = .next (stepL2 s) :=
  (step_of_fetch_run (fetch_loading ((loading_iff _).2 (.inr hq)))).trans (exec_begin_l2 hq)

/-- A run of BEGIN goes from its acceptance to L1. -/
theorem run_begin (k : Nat) {s : State} {rest : List HostMove} (hq : s.seq = .idle)
    (hp : s.hostPort = .command 0x10 :: rest) :
    Host.Core.run core (k + 2) s = Host.Core.run core k (stepL1 (beginAccepted rest s)) := by
  rw [run_succ _ s (step_acceptBegin hq hp), run_succ _ _ (step_l1 rfl)]

/-- The block that L1 has read is the one that L2 commits. -/
theorem step_stepL1 {s : State} (h : readOk 22 (nextAnswer s) = true) :
    step (stepL1 s) = .next (commitBlock (nextAnswer s).bytes (stepL1 s)) := by
  rw [step_l2 (by rw [stepL1_ok h]), stepL2, State.readBUF_of_map_some (by rw [stepL1_ok h])]

/-- Settles O23: acceptance, L1 by `stepL1_ok`, L2 by `commitBlock_ok`. -/
theorem beginRunLoadsStore : Obligations.BeginRunLoadsStore := by
  intro s rest words a hq hp hbus hbytes hl
  have hread : readOk 22 (nextAnswer (beginAccepted rest s)) = true := (readOk_iff 22 a).2 ⟨hbus, hbytes⟩
  have hload : load (stepL1 (beginAccepted rest s)).params.calSentinelCheck a.bytes = .ok words := by
    rw [stepL1_ok hread]
    simpa [beginAccepted] using hl
  rw [run_begin 1 hq hp, run_succ 0 _ (step_stepL1 hread)]
  refine congrArg Host.Outcome.next ((commitBlock_ok hload).trans ?_)
  rw [stepL1_ok hread, State.takeAnswer_eq, State.takeAnswer_eq s]
  rfl

/-- A BEGIN that fails, at L1 or at L2, has changed nothing but BUF and what stands outside the CORE or records the
command: CMD, the port, the transport, the trace and the responses (R115). -/
theorem run_begin_failed {s t : State} {r : Response} (hq : s.seq = .idle) (hp : s.hostPort = [.command 0x10])
    (hrun : Host.Core.run core 3 s = .next t) (hr : t.responses = s.responses ++ [r]) (hne : r.status ≠ .ok) :
    t = { s with
      buf := t.buf, cmd := none, hostPort := [], busIn := t.busIn, busDraws := t.busDraws, trace := t.trace,
      responses := t.responses } := by
  rw [run_begin 1 hq hp] at hrun
  cases hread : readOk 22 (nextAnswer (beginAccepted [] s)) with
  | false =>
    rw [run_idle 1 _ (by rw [stepL1_fail hread]; rfl) (by rw [stepL1_fail hread]; simp [beginAccepted])] at hrun
    cases hrun
    rw [stepL1_fail hread, State.takeAnswer_eq]
    simp [State.emit, beginAccepted, hq]
  | true =>
    rw [run_succ 0 _ (step_stepL1 hread)] at hrun
    cases hrun
    cases hl : load (stepL1 (beginAccepted [] s)).params.calSentinelCheck (nextAnswer (beginAccepted [] s)).bytes with
    | error k =>
      rw [commitBlock_error hl, stepL1_ok hread, State.takeAnswer_eq]
      simp [State.emit, beginAccepted, hq]
    | ok words =>
      rw [commitBlock_ok hl, stepL1_ok hread] at hr
      obtain rfl : okResponse = r := by simpa [beginAccepted] using hr
      exact absurd rfl hne

/-- Settles O24: `run_begin_failed`, and STATE is the resting phase of the same CAL_VALID before and after. -/
theorem failedBeginKeepsState : Obligations.FailedBeginKeepsState := by
  intro s t r hq hp hrun hr hne
  have ht := run_begin_failed hq hp hrun hr hne
  have hseq : t.seq = .idle := by rw [ht]; exact hq
  have hvalid : t.calValid = s.calValid := by rw [ht]
  have hphase : t.phase = s.phase := by rw [phase_resting (.inl hseq), phase_resting (.inl hq), hvalid]
  refine ⟨?_, hvalid, ?_, ?_, ?_, ?_, ?_, ?_, ?_, ?_, ?_, ?_, hseq, hphase⟩ <;> rw [ht]

/-! The rest of the machine (R117). -/

/-- A step other than a construction leaves the store, or is L2 and answers OK with the store valid. -/
theorem StepCase.store_cases {s t : State} (h : StepCase s t) (hnc : ¬ TakesConstruction s) :
    (t.cal = s.cal ∧ t.calValid = s.calValid) ∨
    (s.seq = .l2 ∧ t.calValid = true ∧ t.responses = s.responses ++ [okResponse]) := by
  cases h with
  | construct p rest hq hp => exact absurd ⟨hq, p, rest, hp⟩ hnc
  | store words hq => exact .inr ⟨hq, rfl, rfl⟩
  | _ => exact .inl (by simp [afterTransaction])

/-- Settles O25: by `StepCase.store_cases` the store is kept, or the step is L2 and its answer is no error. -/
theorem storeChangesOnlyAtL2 : Obligations.StoreChangesOnlyAtL2 := by
  intro s t hnc h
  obtain ⟨hcal, hvalid⟩ | ⟨hq, hvalid, hok⟩ := (step_cases h).store_cases hnc
  · exact ⟨fun _ => ⟨hcal, hvalid⟩, fun _ _ _ => ⟨hcal, hvalid⟩, fun hv => hvalid.trans hv⟩
  · refine ⟨fun hne => absurd hq hne, fun r hr hne => ?_, fun _ => hvalid⟩
    obtain rfl : okResponse = r := by simpa [hok] using hr
    exact absurd rfl hne

end Sys2Proof.Machine
end

section
/-! The steps of the measurement sequencer one at a time: acceptance, M1 to M9 with their failures, the normalised raw
pressure, the settle delays, and CONFIG (41_measurement_sequencer.md R131 to R155). -/

namespace Sys2Proof.Machine

open Sys2Proof Sys2Proof.Safety

/-! Acceptance and CONFIG (R131, R155). -/

/-- A response sent at IDLE leaves SEQ as it is (R93). -/
theorem State.emit_of_idle {s : State} (hq : s.seq = .idle) (r : Response) :
    s.emit r = { s with cmd := none, responses := s.responses ++ [r] } := by
  rw [State.emit, ← hq]

theorem exec_measure_idle {s : State} (hq : s.seq = .idle) :
    exec .measure s = .next (acceptMeasure (s.accept 0x20)) := by
  simp only [exec, execMeasure, hq, acceptOrHold_idle]
  rfl

theorem acceptMeasure_calibrated {s : State} (h : s.calValid = true) : acceptMeasure s = { s with seq := .m1 } :=
  if_pos h

theorem acceptMeasure_uncalibrated {s : State} (h : s.calValid = false) :
    acceptMeasure s = s.emit (errorResponse .notCalibrated .idle) := if_neg (Bool.eq_false_iff.1 h)

/-- Settles O26: at the ready port MEASURE is accepted by the value of CAL_VALID. -/
theorem measureAcceptance : Obligations.MeasureAcceptance := fun s hq => by
  rw [exec_measure_idle hq]
  refine ⟨fun hv => ⟨none, ?_⟩, fun hv => ?_⟩
  · rw [acceptMeasure_uncalibrated ((s.accept_calValid _).trans hv)]
    exact congrArg _ (State.emit_of_idle (s := s.accept 0x20) hq _)
  · rw [acceptMeasure_calibrated ((s.accept_calValid _).trans hv)]
    rfl

/-- Settles O39: CONFIG at the ready port writes OSS and answers. -/
theorem configSetsOss : Obligations.ConfigSetsOss := fun s oss hq => by
  rw [exec, execConfig, acceptOrHold_idle hq]
  exact congrArg _ (State.emit_of_idle (s := { s.accept (encode (.config oss)) with oss := oss }) hq okResponse)

/-! The start commands (R133, R145). -/

theorem stepM1_ok {s : State} (h : (nextAnswer s).busError = false) :
    stepM1 s = { s.takeAnswer with seq := .m2, trace := s.trace ++ [.wr s.params.devAddr 0xF4 0x2E true] } :=
  startConversion_ok h ..

theorem stepM1_fail {s : State} (h : (nextAnswer s).busError = true) :
    stepM1 s = State.emit (errorResponse .busError .m1)
      { s.takeAnswer with trace := s.trace ++ [.wr s.params.devAddr 0xF4 0x2E false] } :=
  startConversion_fail h ..

theorem stepM5_ok {s : State} (h : (nextAnswer s).busError = false) (oss : BitVec 2) :
    stepM5 oss s = { s.takeAnswer with
      seq := .m6, trace := s.trace ++ [.wr s.params.devAddr 0xF4 (encode (.startP oss)) true] } :=
  startConversion_ok h ..

theorem stepM5_fail {s : State} (h : (nextAnswer s).busError = true) (oss : BitVec 2) :
    stepM5 oss s = State.emit (errorResponse .busError .m5)
      { s.takeAnswer with trace := s.trace ++ [.wr s.params.devAddr 0xF4 (encode (.startP oss)) false] } :=
  startConversion_fail h ..

/-- Settles O27: `stepM1_ok` if the transport takes the write, else `stepM1_fail`. -/
theorem startTemperatureConversion : Obligations.StartTemperatureConversion := fun s _ => by
  rw [exec, execStartT]
  refine ⟨fun ha => by rw [stepM1_ok ha], fun ha => ⟨none, ?_⟩⟩
  rw [stepM1_fail ha, State.emit, State.takeAnswer_responses]
  rfl

/-- The device command byte of START_P is `0x34` plus 64 for each exponent (R97). -/
theorem encode_startP_eq_ofNat (oss : BitVec 2) : encode (.startP oss) = BitVec.ofNat 8 (0x34 + oss.toNat * 64) := by
  revert oss
  decide

/-- A step that leads to M5 is an M4 whose CompT has given a result (R145). -/
theorem StepCase.m4_of_seq_eq_m5 {s t : State} (h : StepCase s t) (ht : t.seq = .m5) :
    s.seq = .m4 ∧ ∃ result, compT s.readCAL s.readUT = some result := by
  cases h with
  | wait hq => simp [hq] at ht
  | writeCommand _ _ hq => obtain ⟨-, -, rfl⟩ | ⟨-, -, rfl⟩ := hq <;> cases ht
  | delay _ _ hq => obtain ⟨-, -, rfl⟩ | ⟨-, -, rfl⟩ := hq <;> cases ht
  | temperature t b5 hq hr => exact ⟨hq, _, hr⟩
  | _ => cases ht

/-- Settles O28: `stepM5_ok` or `stepM5_fail` on the byte of R97; M4 with a result is the only case of a step that ends
at M5. -/
theorem startPressureConversion : Obligations.StartPressureConversion := by
  refine ⟨fun s _ => ?_, fun _ _ h => (step_cases h).m4_of_seq_eq_m5⟩
  dsimp only
  rw [exec, execStartP, ← encode_startP_eq_ofNat]
  refine ⟨fun ha => by rw [stepM5_ok ha], fun ha => ⟨none, ?_⟩⟩
  rw [stepM5_fail ha, State.emit, State.takeAnswer_responses]
  rfl

/-! The settle delays (R134, R141, R146). -/

theorem exec_measure_m2 {s : State} (hq : s.seq = .m2) : exec .measure s = .next (stepM2 s) := by
  simp [exec, execMeasure, hq]

theorem exec_measure_m6 {s : State} (hq : s.seq = .m6) : exec .measure s = .next (stepM6 s) := by
  simp [exec, execMeasure, hq]

/-- The four delays of R141. -/
theorem pressureDelay_eq (oss : BitVec 2) :
    pressureDelay oss = if oss = 0 then 5 else if oss = 1 then 8 else if oss = 2 then 14 else 26 := by
  revert oss
  decide

/-- Settles O29: a settle step records its delay and goes on; M6 takes its own from the table of R141. -/
theorem settleStepsRequestDelays : Obligations.SettleStepsRequestDelays := fun s =>
  ⟨fun hq => exec_measure_m2 hq, fun hq => by rw [exec_measure_m6 hq, stepM6, settle_eq, pressureDelay_eq]⟩

/-- The delays rise with the exponent (R142). -/
theorem pressureDelay_mono : ∀ o o' : BitVec 2, o.toNat ≤ o'.toNat → pressureDelay o ≤ pressureDelay o' := by
  decide

/-- Each delay covers the nominal settle time (R142). -/
theorem nominalSettleTenths_le : ∀ o : BitVec 2, nominalSettleTenths o ≤ 10 * pressureDelay o := by
  decide

/-- Settles O30: read off the table of R141 for the four exponents. -/
theorem delaysRiseAndCoverNominal : Obligations.DelaysRiseAndCoverNominal := fun o o' =>
  ⟨pressureDelay_mono o o', nominalSettleTenths_le o⟩

/-! The reads (R135, R147). -/

theorem exec_measure_m3 {s : State} (hq : s.seq = .m3) : exec .measure s = .next (stepM3 s) := by
  simp [exec, execMeasure, hq]

theorem exec_measure_m7 {s : State} (hq : s.seq = .m7) : exec .measure s = .next (stepM7 s) := by
  simp [exec, execMeasure, hq]

/-- The raw temperature in the bytes of an answer (R65). -/
def rawTemperature (a : BusAnswer) : Word16 := bytes16 a.bytes[0] a.bytes[1]

/-- The normalised raw pressure in the bytes of an answer (R65, R148). -/
def rawPressure (a : BusAnswer) (oss : BitVec 2) : Word24 :=
  normaliseUP (bytes24 a.bytes[0] a.bytes[1] a.bytes[2]) oss

theorem stepM3_ok {s : State} (h : readOk 2 (nextAnswer s) = true) :
    stepM3 s = { s.takeAnswer with
      buf := bufReceive 2 (nextAnswer s).bytes s.buf, ut := some (rawTemperature (nextAnswer s)), seq := .m4,
      trace := s.trace ++ [.rd s.params.devAddr 0xF6 2 (some ((nextAnswer s).bytes.toList.take 2))] } := by
  rw [stepM3, memRead_ok h]
  rfl

theorem stepM3_fail {s : State} (h : readOk 2 (nextAnswer s) = false) :
    stepM3 s = State.emit (errorResponse .busError .m3) { s.takeAnswer with
      buf := bufLeftover (nextAnswer s).bytes,
      trace := s.trace ++ [.rd s.params.devAddr 0xF6 2 none] } := by
  rw [stepM3, memRead_fail h]
  rfl

theorem stepM7_ok {s : State} (h : readOk 3 (nextAnswer s) = true) :
    stepM7 s = { s.takeAnswer with
      buf := bufReceive 3 (nextAnswer s).bytes s.buf, up := some (rawPressure (nextAnswer s) s.oss), seq := .m8,
      trace := s.trace ++ [.rd s.params.devAddr 0xF6 3 (some ((nextAnswer s).bytes.toList.take 3))] } := by
  rw [stepM7, memRead_ok h]
  simp [rawPressure, resultReg]

theorem stepM7_fail {s : State} (h : readOk 3 (nextAnswer s) = false) :
    stepM7 s = State.emit (errorResponse .busError .m7) { s.takeAnswer with
      buf := bufLeftover (nextAnswer s).bytes,
      trace := s.trace ++ [.rd s.params.devAddr 0xF6 3 none] } := by
  rw [stepM7, memRead_fail h]
  rfl

/-- BUF[0..n-1] after a read of `n` bytes (R66(a)). -/
theorem getElem_bufReceive_of_lt {n : Nat} {i : Fin 22} (h : i.val < n) (bytes : Vector Byte 22)
    (old : Vector (Option Byte) 22) : (bufReceive n bytes old)[i] = some bytes[i] := by
  rw [getElem_bufReceive, if_pos h]

/-- Settles O32: `stepM3_ok` if the transport returns no error and 2 bytes, else `stepM3_fail`. -/
theorem measureReadsRawTemperature : Obligations.MeasureReadsRawTemperature := fun s hq => by
  dsimp only
  rw [← readOk_iff, exec_measure_m3 hq]
  refine ⟨fun ha => ⟨rawTemperature (nextAnswer s), bufReceive 2 (nextAnswer s).bytes s.buf, bytes16_toNat _ _,
    fun i hi => getElem_bufReceive_of_lt hi _ _, ?_⟩, fun ha => ⟨bufLeftover (nextAnswer s).bytes, none, ?_⟩⟩
  · rw [stepM3_ok ha, toList_take_two]
  · rw [stepM3_fail (Bool.eq_false_of_not_eq_true ha), State.emit, State.takeAnswer_responses]
    rfl

/-- The shift of R148 is the quotient by `2 ^ (8 - oss)`. -/
theorem normaliseUP_toNat (raw24 : Word24) (oss : BitVec 2) :
    (normaliseUP raw24 oss).toNat = raw24.toNat / 2 ^ (8 - oss.toNat) := by
  rw [normaliseUP, BitVec.toNat_ushiftRight, Nat.shiftRight_eq_div_pow]

/-- Settles O47: the shift is a quotient, and `normaliseUP_lt` bounds it. -/
theorem normalisedPressureIsBounded : Obligations.NormalisedPressureIsBounded := fun raw24 oss =>
  ⟨normaliseUP_toNat raw24 oss, normaliseUP_lt raw24 oss⟩

/-- Settles O34: `stepM7_ok` if the transport returns no error and 3 bytes, else `stepM7_fail`. -/
theorem measureReadsRawPressure : Obligations.MeasureReadsRawPressure := fun s hq => by
  dsimp only
  rw [← readOk_iff, exec_measure_m7 hq]
  refine ⟨fun ha => ⟨rawPressure (nextAnswer s) s.oss, bufReceive 3 (nextAnswer s).bytes s.buf, ?_,
    fun i hi => getElem_bufReceive_of_lt hi _ _, ?_⟩, fun ha => ⟨bufLeftover (nextAnswer s).bytes, none, ?_⟩⟩
  · rw [rawPressure, normaliseUP_toNat, bytes24_toNat]
  · rw [stepM7_ok ha, toList_take_three]
  · rw [stepM7_fail (Bool.eq_false_of_not_eq_true ha), State.emit, State.takeAnswer_responses]
    rfl

/-! The computations and the publication (R136, R149, R150). -/

/-- What M4 computes from, once UT and CAL are written. -/
theorem stepM4_eq {s : State} {ut : Word16} {words : CalWords} (hut : s.ut = some ut) (hcal : s.cal = some words) :
    stepM4 s = stageTemperature (compT words ut) s := by
  rw [stepM4, State.readCAL_of_some hcal, State.readUT_of_some hut]

/-- What M8 computes from, once UP, B5 and CAL are written. -/
theorem stepM8_eq {s : State} {up : Word24} {b5 : Word64} {words : CalWords} (hup : s.up = some up)
    (hb5 : s.b5 = some b5) (hcal : s.cal = some words) : stepM8 s = handPressure (compP words up b5 s.oss) s := by
  rw [stepM8, State.readCAL_of_some hcal, State.readUP_of_some hup, State.readB5_of_some hb5]

/-- What M9 publishes, once T_STAGE is written and a pressure handed over. -/
theorem stepM9_eq {s : State} {t p : Word64} (ht : s.tStage = some t) (hp : s.pHandoff = some p) :
    stepM9 s = publish t p s := by
  rw [stepM9, State.readTStage_of_some ht, State.readHandoff_of_some hp]

/-- Settles O33: `stageTemperature` on the two results of CompT. -/
theorem measureComputesTemperature : Obligations.MeasureComputesTemperature := fun s ut words hq hut hcal => by
  rw [exec_measure_m4 hq, stepM4_eq hut hcal]
  exact ⟨fun t b5 hr => by rw [hr, stageTemperature], fun hr => ⟨none, by rw [hr]; rfl⟩⟩

/-- Settles O35: `handPressure` on the two results of CompP. -/
theorem measureComputesPressure : Obligations.MeasureComputesPressure := fun s up b5 words hq hup hb5 hcal => by
  rw [exec_measure_m8 hq, stepM8_eq hup hb5 hcal]
  exact ⟨fun p hr => by rw [hr, handPressure], fun hr => by rw [hr]; rfl⟩

/-- Settles O36: M9 publishes what T_STAGE holds and what M8 handed over. -/
theorem measurePublishesTogether : Obligations.MeasurePublishesTogether := fun s t p hq ht hp => by
  rw [exec_measure_m9 hq, stepM9_eq ht hp]
  rfl

end Sys2Proof.Machine
end

section
/-! The whole MEASURE: the ten steps that publish when nothing fails, and what a cycle answers and publishes as a
function of CAL, OSS and the transport's four answers (41_measurement_sequencer.md R130, R152). -/

namespace Sys2Proof.Machine

open Sys2Proof Sys2Proof.Safety

/-! One step of the cycle (R130). -/

/-- What the machine does at each step of a cycle. -/
def cycleStep : Seq → State → State
  | .m1, s => stepM1 s
  | .m2, s => stepM2 s
  | .m3, s => stepM3 s
  | .m4, s => stepM4 s
  | .m5, s => stepM5 s.oss s
  | .m6, s => stepM6 s
  | .m7, s => stepM7 s
  | .m8, s => stepM8 s
  | .m9, s => stepM9 s
  | .idle, s | .l1, s | .l2, s => s

theorem step_of_measuring {s : State} {q : Seq} (hq : s.seq = q) (hm : q.measuring = true) :
    step s = .next (cycleStep q s) := by
  cases q <;> simp only [Seq.measuring, Bool.false_eq_true] at hm
  all_goals simp only [step, fetch, hq, exec, execMeasure, execStartT, execStartP, cycleStep]

theorem run_cycleStep (k : Nat) {s : State} (q : Seq) (hq : s.seq = q) (hm : q.measuring = true) :
    Host.Core.run core (k + 1) s = Host.Core.run core k (cycleStep q s) :=
  run_succ k s (step_of_measuring hq hm)

/-- The state after MEASURE has been accepted, with `rest` still pending (R131). -/
def measureAccepted (rest : List HostMove) (s : State) : State :=
  { s with hostPort := rest, cmd := some 0x20, seq := .m1 }

theorem step_acceptMeasure {s : State} {rest : List HostMove} (hq : s.seq = .idle)
    (hp : s.hostPort = .command 0x20 :: rest) (hv : s.calValid = true) : step s = .next (measureAccepted rest s) :=
  (step_of_fetch_run (fetch_command hq hp rfl)).trans ((measureAcceptance { s with hostPort := rest } hq).2 hv)

/-! The cycle in which nothing fails. -/

theorem stepM4_ok {s : State} {ut : Word16} {words : CalWords} {t b5 : Word64} (hut : s.ut = some ut)
    (hcal : s.cal = some words) (h : compT words ut = some (t, b5)) :
    stepM4 s = { s with tStage := some t, b5 := some b5, seq := .m5 } := by
  rw [stepM4_eq hut hcal, h, stageTemperature]

theorem stepM8_ok {s : State} {up : Word24} {b5 p : Word64} {words : CalWords} (hup : s.up = some up)
    (hb5 : s.b5 = some b5) (hcal : s.cal = some words) (h : compP words up b5 s.oss = some p) :
    stepM8 s = { s with pHandoff := some p, seq := .m9 } := by
  rw [stepM8_eq hup hb5 hcal, h, handPressure]

/-- The state at M5, `a` being the answer to the read of M3: the temperature is latched and staged, and M1 to M3 are on
the trace. -/
def temperatureStaged (a : BusAnswer) (t b5 : Word64) (s : State) : State :=
  { s with
    buf := bufReceive 2 a.bytes s.buf, ut := some (rawTemperature a), tStage := some t, b5 := some b5, seq := .m5,
    trace := s.trace ++ [.wr s.params.devAddr 0xF4 0x2E true, .dly 5,
      .rd s.params.devAddr 0xF6 2 (some (a.bytes.toList.take 2))] }

/-- The state after M9, `a` being the answer to the read of M7: the pressure is latched, both results are published, and
M5 to M7 are on the trace. -/
def cyclePublished (a : BusAnswer) (t p : Word64) (s : State) : State :=
  { s with
    buf := bufReceive 3 a.bytes s.buf, up := some (rawPressure a s.oss), pHandoff := none,
    resT10 := some t, resP := some p, resValid := true, seq := .idle, cmd := none,
    trace := s.trace ++ [.wr s.params.devAddr 0xF4 (encode (.startP s.oss)) true, .dly (pressureDelay s.oss),
      .rd s.params.devAddr 0xF6 3 (some (a.bytes.toList.take 3))],
    responses := s.responses ++ [okResponse] }

/-- Acceptance leaves the transport alone (R131). -/
theorem takeAnswer_measureAccepted (rest : List HostMove) (s : State) :
    (measureAccepted rest s).takeAnswer = measureAccepted rest s.takeAnswer := by
  simp only [State.takeAnswer_eq]
  rfl

theorem takeAnswer_temperatureStaged (a : BusAnswer) (t b5 : Word64) (s : State) :
    (temperatureStaged a t b5 s).takeAnswer = temperatureStaged a t b5 s.takeAnswer := by
  simp only [State.takeAnswer_eq]
  rfl

/-- M1 to M4: the temperature is read and staged. -/
theorem run_temperature (k : Nat) {s : State} {words : CalWords} {a : BusAnswer} {t b5 : Word64} (hq : s.seq = .m1)
    (hcal : s.cal = some words) (hw : (nextAnswer s).busError = false) (ha : nextAnswer s.takeAnswer = a)
    (hr : readOk 2 a = true) (hc : compT words (rawTemperature a) = some (t, b5)) :
    Host.Core.run core (k + 4) s = Host.Core.run core k (temperatureStaged a t b5 s.takeAnswer.takeAnswer) := by
  subst ha
  simp only [State.takeAnswer_eq] at hr hc ⊢
  rw [run_cycleStep _ .m1 hq rfl, cycleStep, stepM1_ok hw, State.takeAnswer_eq,
    run_cycleStep _ .m2 rfl rfl, cycleStep, stepM2, settle_eq,
    run_cycleStep _ .m3 rfl rfl, cycleStep, stepM3_ok (by exact hr), State.takeAnswer_eq,
    run_cycleStep _ .m4 rfl rfl, cycleStep, stepM4_ok rfl (by exact hcal) (by exact hc)]
  simp only [temperatureStaged, temperatureDelay, List.append_assoc, List.cons_append, List.nil_append]
  rfl

/-- M5 to M9: the pressure is read and both results are published. -/
theorem run_pressure {s : State} {words : CalWords} {a : BusAnswer} {t b5 p : Word64} {oss : BitVec 2}
    (hq : s.seq = .m5) (hcal : s.cal = some words) (ht : s.tStage = some t) (hb5 : s.b5 = some b5) (ho : s.oss = oss)
    (hw : (nextAnswer s).busError = false) (ha : nextAnswer s.takeAnswer = a) (hr : readOk 3 a = true)
    (hc : compP words (rawPressure a oss) b5 oss = some p) :
    Host.Core.run core 5 s = .next (cyclePublished a t p s.takeAnswer.takeAnswer) := by
  subst ha ho
  simp only [State.takeAnswer_eq] at hr hc ⊢
  rw [run_cycleStep _ .m5 hq rfl, cycleStep, stepM5_ok hw, State.takeAnswer_eq,
    run_cycleStep _ .m6 rfl rfl, cycleStep, stepM6, settle_eq,
    run_cycleStep _ .m7 rfl rfl, cycleStep, stepM7_ok (by exact hr), State.takeAnswer_eq,
    run_cycleStep _ .m8 rfl rfl, cycleStep, stepM8_ok rfl (by exact hb5) (by exact hcal) (by exact hc),
    run_cycleStep _ .m9 rfl rfl, cycleStep, stepM9_eq (by exact ht) rfl]
  simp only [cyclePublished, List.append_assoc, List.cons_append, List.nil_append]
  rfl

/-- M1 to M9, with the four answers `nextAnswer s`, `a`, the third one and `a'`. -/
theorem run_cycle {s : State} {words : CalWords} {a a' : BusAnswer} {t b5 p : Word64} (hq : s.seq = .m1)
    (hcal : s.cal = some words) (hw : (nextAnswer s).busError = false) (ha : nextAnswer s.takeAnswer = a)
    (hr : readOk 2 a = true) (hc : compT words (rawTemperature a) = some (t, b5))
    (hw' : (nextAnswer s.takeAnswer.takeAnswer).busError = false)
    (ha' : nextAnswer s.takeAnswer.takeAnswer.takeAnswer = a') (hr' : readOk 3 a' = true)
    (hc' : compP words (rawPressure a' s.oss) b5 s.oss = some p) :
    Host.Core.run core 9 s = .next
      (cyclePublished a' t p (temperatureStaged a t b5 s.takeAnswer.takeAnswer.takeAnswer.takeAnswer)) := by
  have hcal' : (temperatureStaged a t b5 s.takeAnswer.takeAnswer).cal = some words := by simp [temperatureStaged, hcal]
  have hoss : (temperatureStaged a t b5 s.takeAnswer.takeAnswer).oss = s.oss := by simp [temperatureStaged]
  have hnext : nextAnswer (temperatureStaged a t b5 s.takeAnswer.takeAnswer).takeAnswer = a' := by
    rw [takeAnswer_temperatureStaged]
    exact ha'
  rw [run_temperature 5 hq hcal hw ha hr hc, run_pressure rfl hcal' rfl rfl hoss hw' hnext hr' hc',
    takeAnswer_temperatureStaged, takeAnswer_temperatureStaged]

/-- Settles O37: acceptance, then `run_cycle`. -/
theorem measureCyclePublishesResults : Obligations.MeasureCyclePublishesResults := by
  intro s rest words t b5 p s1 s2 s3 temperature pressure ut up hq hp hv hcal hw1 he2 hn2 hw3 he4 hn4 hct hcp
  have hread : readOk 2 temperature = true := (readOk_iff 2 temperature).2 ⟨he2, hn2⟩
  have hread' : readOk 3 pressure = true := (readOk_iff 3 pressure).2 ⟨he4, hn4⟩
  have hcycle := run_cycle (s := measureAccepted rest s) (words := words) (a := temperature) (a' := pressure) (t := t)
    (b5 := b5) (p := p) rfl hcal hw1
  simp only [takeAnswer_measureAccepted] at hcycle
  rw [run_succ 9 s (step_acceptMeasure hq hp hv)]
  refine (hcycle rfl hread hct hw3 rfl hread' hcp).trans (congrArg _ ?_)
  simp only [cyclePublished, temperatureStaged, measureAccepted, State.takeAnswer_buf, State.takeAnswer_oss,
    State.takeAnswer_params, State.takeAnswer_trace, State.takeAnswer_responses, List.append_assoc, List.cons_append,
    List.nil_append, s3, s2, s1]
  rfl

/-! What a cycle comes to, whether it fails or not (R152). -/

/-- What a cycle leaves for the host: the responses and the published results. -/
structure HostView where
  responses : List Response
  resT10 : Option Word64
  resP : Option Word64
  resValid : Bool

def State.hostView (s : State) : HostView := ⟨s.responses, s.resT10, s.resP, s.resValid⟩

/-- The error response of a cycle that fails at the step `q` (R232, R231). -/
def cycleError (q : Seq) : Response := errorResponse (if q = .m4 ∨ q = .m8 then .arithFault else .busError) q

theorem cycleError_status_ne_ok (q : Seq) : (cycleError q).status ≠ .ok := by
  simp only [cycleError, errorResponse]
  split <;> nofun

theorem stepM4_fail {s : State} {ut : Word16} {words : CalWords} (hut : s.ut = some ut) (hcal : s.cal = some words)
    (h : compT words ut = none) : stepM4 s = s.emit (cycleError .m4) := by
  rw [stepM4_eq hut hcal, h]
  rfl

theorem stepM8_fail {s : State} {up : Word24} {b5 : Word64} {words : CalWords} (hup : s.up = some up)
    (hb5 : s.b5 = some b5) (hcal : s.cal = some words) (h : compP words up b5 s.oss = none) :
    stepM8 s = s.emit (cycleError .m8) := by
  rw [stepM8_eq hup hb5 hcal, h]
  rfl

/-- What the host sees after a cycle that ends with these results, or fails at this step. -/
def HostView.after (v : HostView) : Except Seq (Word64 × Word64) → HostView
  | .ok (t, p) => ⟨v.responses ++ [okResponse], some t, some p, true⟩
  | .error q => { v with responses := v.responses ++ [cycleError q] }

/-- M7 to M9: the outcome, `read` being the answer at M7. -/
def pressureReadOutcome (words : CalWords) (oss : BitVec 2) (t b5 : Word64) (read : BusAnswer) :
    Except Seq (Word64 × Word64) :=
  if readOk 3 read then (compP words (rawPressure read oss) b5 oss).elim (.error .m8) fun p => .ok (t, p)
  else .error .m7

/-- M5 to M9: the outcome, given the answers at M5 and M7. -/
def pressureOutcome (words : CalWords) (oss : BitVec 2) (t b5 : Word64) (write read : BusAnswer) :
    Except Seq (Word64 × Word64) :=
  if write.busError then .error .m5 else pressureReadOutcome words oss t b5 read

/-- M3 to M9: the outcome, given the answers at M3, M5 and M7. -/
def temperatureReadOutcome (words : CalWords) (oss : BitVec 2) (read write' read' : BusAnswer) :
    Except Seq (Word64 × Word64) :=
  if readOk 2 read then
    (compT words (rawTemperature read)).elim (.error .m4) fun r => pressureOutcome words oss r.1 r.2 write' read'
  else .error .m3

/-- A whole cycle: its results or the step that fails, as a function of CAL, OSS and the four answers (R152). -/
def cycleOutcome (words : CalWords) (oss : BitVec 2) (write read write' read' : BusAnswer) :
    Except Seq (Word64 × Word64) :=
  if write.busError then .error .m1 else temperatureReadOutcome words oss read write' read'

/-- The run of `n` steps from `s` ends with this outcome. -/
def RunEnds (n : Nat) (s : State) (outcome : Except Seq (Word64 × Word64)) : Prop :=
  ∃ t, Host.Core.run core n s = .next t ∧ t.hostView = s.hostView.after outcome

/-- A step that answers nothing and publishes nothing leaves the outcome to the rest of the run. -/
theorem RunEnds.of_step {n : Nat} {s t : State} {outcome : Except Seq (Word64 × Word64)} (h : step s = .next t)
    (hv : t.hostView = s.hostView) (ht : RunEnds n t outcome) : RunEnds (n + 1) s outcome := by
  obtain ⟨u, hrun, hu⟩ := ht
  exact ⟨u, (run_succ n s h).trans hrun, by rw [hu, hv]⟩

/-- A step that fails ends the cycle; with nothing pending the CORE then waits. -/
theorem RunEnds.of_error {s u : State} {r : Response} {q : Seq} (n : Nat) (h : step s = .next (u.emit r))
    (hr : r = cycleError q) (hv : u.hostView = s.hostView) (hp : u.hostPort = []) : RunEnds (n + 1) s (.error q) := by
  refine ⟨_, (run_succ n s h).trans (run_idle n _ rfl hp), ?_⟩
  rw [← hv, hr]
  rfl

/-! From each step of a cycle, with nothing pending, the rest of the run ends with the outcome of what is left. -/

/-- What a cycle keeps along its run: no move is pending, CAL and OSS hold these values, and the transport is where it
is in `u` (R68). -/
def InCycle (words : CalWords) (oss : BitVec 2) (u s : State) : Prop :=
  s.hostPort = [] ∧ s.cal = some words ∧ s.oss = oss ∧ s.busIn = u.busIn ∧ s.busDraws = u.busDraws

section
variable {words : CalWords} {oss : BitVec 2} {u s : State}

theorem InCycle.hostPort (h : InCycle words oss u s) : s.hostPort = [] := h.1

theorem InCycle.cal (h : InCycle words oss u s) : s.cal = some words := h.2.1

theorem InCycle.oss_eq (h : InCycle words oss u s) : s.oss = oss := h.2.2.1

theorem InCycle.nextAnswer_eq (h : InCycle words oss u s) : nextAnswer s = nextAnswer u := by
  obtain ⟨-, -, -, hi, hd⟩ := h
  exact nextAnswer_congr hi hd

theorem InCycle.takeAnswer (h : InCycle words oss u s) : InCycle words oss u.takeAnswer s.takeAnswer := by
  obtain ⟨hp, hcal, ho, hi, hd⟩ := h
  simp [InCycle, hp, hcal, ho, hi, hd]

theorem runEnds_m8 {up : Word24} {t b5 : Word64} (h : InCycle words oss u s) (hq : s.seq = .m8)
    (hup : s.up = some up) (hb5 : s.b5 = some b5) (ht : s.tStage = some t) :
    RunEnds 2 s ((compP words up b5 oss).elim (.error .m8) fun p => .ok (t, p)) := by
  have hstep : step s = .next (stepM8 s) := step_of_measuring hq rfl
  rw [← h.oss_eq]
  cases hc : compP words up b5 s.oss with
  | none =>
    rw [stepM8_fail hup hb5 h.cal hc] at hstep
    exact RunEnds.of_error 1 hstep rfl rfl h.hostPort
  | some p =>
    rw [stepM8_ok hup hb5 h.cal hc] at hstep
    refine .of_step hstep rfl ⟨_, run_cycleStep 0 .m9 rfl rfl, ?_⟩
    rw [cycleStep, stepM9_eq (by exact ht) rfl]
    rfl

theorem runEnds_m7 {t b5 : Word64} (h : InCycle words oss u s) (hq : s.seq = .m7) (hb5 : s.b5 = some b5)
    (ht : s.tStage = some t) : RunEnds 3 s (pressureReadOutcome words oss t b5 (nextAnswer u)) := by
  have hstep : step s = .next (stepM7 s) := step_of_measuring hq rfl
  rw [pressureReadOutcome, ← h.nextAnswer_eq]
  cases ha : readOk 3 (nextAnswer s) with
  | false =>
    rw [stepM7_fail ha] at hstep
    rw [if_neg Bool.false_ne_true]
    exact .of_error 2 hstep rfl (by simp [State.hostView]) h.takeAnswer.hostPort
  | true =>
    rw [stepM7_ok ha, h.oss_eq] at hstep
    rw [if_pos rfl]
    exact .of_step hstep (by simp [State.hostView]) (runEnds_m8 (by exact h.takeAnswer) rfl rfl
      (s.takeAnswer_b5.trans hb5) (s.takeAnswer_tStage.trans ht))

theorem runEnds_m5 {t b5 : Word64} (h : InCycle words oss u s) (hq : s.seq = .m5) (hb5 : s.b5 = some b5)
    (ht : s.tStage = some t) :
    RunEnds 5 s (pressureOutcome words oss t b5 (nextAnswer u) (nextAnswer u.takeAnswer)) := by
  have hstep : step s = .next (stepM5 s.oss s) := step_of_measuring hq rfl
  rw [pressureOutcome, ← h.nextAnswer_eq]
  cases hw : (nextAnswer s).busError with
  | true =>
    rw [stepM5_fail hw] at hstep
    rw [if_pos rfl]
    exact .of_error 4 hstep rfl (by simp [State.hostView]) h.takeAnswer.hostPort
  | false =>
    rw [stepM5_ok hw] at hstep
    rw [if_neg Bool.false_ne_true]
    exact .of_step hstep (by simp [State.hostView]) (.of_step (step_of_measuring rfl rfl) rfl
      (runEnds_m7 (by exact h.takeAnswer) rfl (s.takeAnswer_b5.trans hb5) (s.takeAnswer_tStage.trans ht)))

theorem runEnds_m4 {ut : Word16} (h : InCycle words oss u s) (hq : s.seq = .m4) (hut : s.ut = some ut) :
    RunEnds 6 s ((compT words ut).elim (.error .m4) fun r =>
      pressureOutcome words oss r.1 r.2 (nextAnswer u) (nextAnswer u.takeAnswer)) := by
  have hstep : step s = .next (stepM4 s) := step_of_measuring hq rfl
  cases hc : compT words ut with
  | none =>
    rw [stepM4_fail hut h.cal hc] at hstep
    exact RunEnds.of_error 5 hstep rfl rfl h.hostPort
  | some r =>
    rw [stepM4_ok hut h.cal hc] at hstep
    exact .of_step hstep rfl (runEnds_m5 (by exact h) rfl rfl rfl)

theorem runEnds_m3 (h : InCycle words oss u s) (hq : s.seq = .m3) :
    RunEnds 7 s (temperatureReadOutcome words oss (nextAnswer u) (nextAnswer u.takeAnswer)
      (nextAnswer u.takeAnswer.takeAnswer)) := by
  have hstep : step s = .next (stepM3 s) := step_of_measuring hq rfl
  rw [temperatureReadOutcome, ← h.nextAnswer_eq]
  cases hr : readOk 2 (nextAnswer s) with
  | false =>
    rw [stepM3_fail hr] at hstep
    rw [if_neg Bool.false_ne_true]
    exact .of_error 6 hstep rfl (by simp [State.hostView]) h.takeAnswer.hostPort
  | true =>
    rw [stepM3_ok hr] at hstep
    rw [if_pos rfl]
    exact .of_step hstep (by simp [State.hostView]) (runEnds_m4 (by exact h.takeAnswer) rfl rfl)

theorem runEnds_m1 (h : InCycle words oss u s) (hq : s.seq = .m1) :
    RunEnds 9 s (cycleOutcome words oss (nextAnswer u) (nextAnswer u.takeAnswer)
      (nextAnswer u.takeAnswer.takeAnswer) (nextAnswer u.takeAnswer.takeAnswer.takeAnswer)) := by
  have hstep : step s = .next (stepM1 s) := step_of_measuring hq rfl
  rw [cycleOutcome, ← h.nextAnswer_eq]
  cases hw : (nextAnswer s).busError with
  | true =>
    rw [stepM1_fail hw] at hstep
    rw [if_pos rfl]
    exact .of_error 8 hstep rfl (by simp [State.hostView]) h.takeAnswer.hostPort
  | false =>
    rw [stepM1_ok hw] at hstep
    rw [if_neg Bool.false_ne_true]
    exact .of_step hstep (by simp [State.hostView]) (.of_step (step_of_measuring rfl rfl) rfl
      (runEnds_m3 (by exact h.takeAnswer) rfl))

end

/-- The whole MEASURE ends with its outcome (R152). -/
theorem runEnds_measure {s : State} {words : CalWords} (hq : s.seq = .idle) (hp : s.hostPort = [.command 0x20])
    (hv : s.calValid = true) (hcal : s.cal = some words) :
    RunEnds 10 s (cycleOutcome words s.oss (nextAnswer s) (nextAnswer s.takeAnswer)
      (nextAnswer s.takeAnswer.takeAnswer) (nextAnswer s.takeAnswer.takeAnswer.takeAnswer)) :=
  .of_step (step_acceptMeasure hq hp hv) rfl (runEnds_m1 ⟨rfl, hcal, rfl, rfl, rfl⟩ rfl)

/-- Settles O38: the outcome of a cycle is a function of the inputs that R152 names, so the two runs end with the same
one. -/
theorem measureDependsOnlyOnItsInputs : Obligations.MeasureDependsOnlyOnItsInputs := by
  intro s s' words s2 s2' temperature temperature' pressure pressure' hq hq' hp hp' hv hv' hcal hcal' ho hw1 hr3 h30 h31
    hw5 hr7 h70 h71 h72
  have hsame : cycleOutcome words s.oss (nextAnswer s) temperature (nextAnswer s2) pressure =
      cycleOutcome words s'.oss (nextAnswer s') temperature' (nextAnswer s2') pressure' := by
    simp only [cycleOutcome, temperatureReadOutcome, pressureOutcome, pressureReadOutcome, rawTemperature, rawPressure,
      ho, hw1, hr3, h30, h31, hw5, hr7, h70, h71, h72]
  have hends : RunEnds 10 s (cycleOutcome words s.oss (nextAnswer s) temperature (nextAnswer s2) pressure) :=
    runEnds_measure hq hp hv hcal
  have hends' : RunEnds 10 s' (cycleOutcome words s.oss (nextAnswer s) temperature (nextAnswer s2) pressure) :=
    hsame ▸ runEnds_measure hq' hp' hv' hcal'
  generalize cycleOutcome words s.oss (nextAnswer s) temperature (nextAnswer s2) pressure = outcome at hends hends'
  obtain ⟨t, hrun, ht⟩ := hends
  obtain ⟨t', hrun', ht'⟩ := hends'
  cases outcome with
  | ok results =>
    obtain ⟨hr, ht10, hpr, hvalid⟩ := HostView.mk.inj ht
    obtain ⟨hr', ht10', hpr', hvalid'⟩ := HostView.mk.inj ht'
    exact ⟨t, t', okResponse, hrun, hrun', hr, hr', fun _ => ⟨by rw [ht10]; rfl, by rw [hpr]; rfl, hvalid, hvalid',
      ht10.trans ht10'.symm, hpr.trans hpr'.symm⟩, fun hne => absurd rfl hne⟩
  | error q =>
    obtain ⟨hr, ht10, hpr, hvalid⟩ := HostView.mk.inj ht
    obtain ⟨hr', ht10', hpr', hvalid'⟩ := HostView.mk.inj ht'
    exact ⟨t, t', cycleError q, hrun, hrun', hr, hr', fun hok => absurd hok (cycleError_status_ne_ok q),
      fun _ => ⟨ht10, hpr, hvalid, ht10', hpr', hvalid'⟩⟩

end Sys2Proof.Machine
end

section
/-! The exact value of a datapath operation from the exact values of its operands (00_scope.md R10 to R13): an integer
formula is read off the datapath's text operation by operation. -/

namespace Sys2Proof.Machine

open Sys2Proof

section
variable {a b : Word64} {x y : Int}

theorem dpAdd_exact (ha : a.toInt = x) (hb : b.toInt = y) (h : Fits64 (x + y)) : (dpAdd a b).toInt = x + y := by
  subst ha hb
  exact dpAdd_toInt h

theorem dpSub_exact (ha : a.toInt = x) (hb : b.toInt = y) (h : Fits64 (x - y)) : (dpSub a b).toInt = x - y := by
  subst ha hb
  exact dpSub_toInt h

theorem dpMul_exact (ha : a.toInt = x) (hb : b.toInt = y) (h : Fits64 (x * y)) : (dpMul a b).toInt = x * y := by
  subst ha hb
  exact dpMul_toInt h

theorem dpShl_exact (ha : a.toInt = x) (n : Nat) (h : Fits64 (x * 2 ^ n)) : (dpShl a n).toInt = x * 2 ^ n := by
  subst ha
  exact dpShl_toInt h

theorem dpShr_exact (ha : a.toInt = x) (n : Nat) : (dpShr a n).toInt = x / 2 ^ n := by
  subst ha
  exact dpShr_toInt a n

end

end Sys2Proof.Machine
end

section
/-! CompT: the exact value and the range of each of its lines, and the formula as a whole
(42_temperature_compensation.md). -/

namespace Sys2Proof.Machine

open Sys2Proof

section
variable (words : CalWords) (ut : Word16)

/-! The first term (R171). -/

theorem word_sub_natAbs_le (u c : Word16) : ((u.toNat : Int) - c.toNat).natAbs ≤ 65535 := by
  have hu := u.isLt
  have hc := c.isLt
  omega

/-- The product of R171: past 32 bits, far within 64 (R176). -/
theorem word_sub_mul_natAbs_le (u c k : Word16) :
    (((u.toNat : Int) - c.toNat) * k.toNat).natAbs ≤ 4294836225 := by
  rw [Int.natAbs_mul, Int.natAbs_natCast]
  exact Nat.mul_le_mul (word_sub_natAbs_le u c) (Nat.le_of_lt_succ k.isLt)

theorem tempX1_toInt :
    (tempX1 words ut).toInt = ((ut.toNat : Int) - (words[5]).toNat) * (words[4]).toNat / 32768 := by
  have hsub := word_sub_natAbs_le ut words[5]
  have hmul := word_sub_mul_natAbs_le ut words[5] words[4]
  have hd : (dpSub (zext ut) (calAC6 words)).toInt = (ut.toNat : Int) - (words[5]).toNat :=
    dpSub_exact (zext16_toInt ut) (zext16_toInt _) ⟨by omega, by omega⟩
  exact dpShr_exact (dpMul_exact hd (zext16_toInt _) ⟨by omega, by omega⟩) 15

theorem tempX1_bounds : -131069 ≤ (tempX1 words ut).toInt ∧ (tempX1 words ut).toInt ≤ 131068 := by
  have hmul := word_sub_mul_natAbs_le ut words[5] words[4]
  rw [tempX1_toInt]
  omega

/-! The second term (R172). -/

theorem tempDividend_natAbs_le : ((words[9]).toInt * 2048).natAbs ≤ 67108864 := by
  have hl := (words[9]).le_toInt
  have hu := (words[9]).toInt_lt
  omega

theorem tempDividend_toInt : (dpShl (calMC words) 11).toInt = (words[9]).toInt * 2048 := by
  have h := tempDividend_natAbs_le words
  exact dpShl_exact (sext16_toInt _) 11 ⟨by omega, by omega⟩

theorem tempDivisor_toInt :
    (dpAdd (tempX1 words ut) (calMD words)).toInt = (tempX1 words ut).toInt + (words[10]).toInt := by
  have hl := (words[10]).le_toInt
  have hu := (words[10]).toInt_lt
  obtain ⟨hl1, hu1⟩ := tempX1_bounds words ut
  exact dpAdd_exact rfl (sext16_toInt _) ⟨by omega, by omega⟩

/-- A truncating quotient is no larger than its dividend: X2 is in the range of `MC << 11` whatever X1 + MD is. -/
theorem tempQuotient_natAbs_le (d : Int) : (Int.tdiv ((words[9]).toInt * 2048) d).natAbs ≤ 67108864 :=
  (Int.natAbs_tdiv_le_natAbs _ d).trans (tempDividend_natAbs_le words)

theorem tempX2_of_ne_zero (h : (tempX1 words ut).toInt + (words[10]).toInt ≠ 0) :
    ∃ x2, tempX2 words (tempX1 words ut) = some x2 ∧
      x2.toInt = Int.tdiv ((words[9]).toInt * 2048) ((tempX1 words ut).toInt + (words[10]).toInt) := by
  have hd : dpAdd (tempX1 words ut) (calMD words) ≠ 0 := fun h0 =>
    h (by rw [← tempDivisor_toInt, h0]; rfl)
  refine ⟨_, dpDiv_of_ne_zero hd, ?_⟩
  rw [tempDividend_toInt, tempDivisor_toInt]
  have hq := tempQuotient_natAbs_le words ((tempX1 words ut).toInt + (words[10]).toInt)
  exact wrap64_toInt ⟨by omega, by omega⟩

/-! The results (R173, R174). -/

/-- B5 as an integer (R173). -/
def temperatureB5 : Int :=
  (tempX1 words ut).toInt + Int.tdiv ((words[9]).toInt * 2048) ((tempX1 words ut).toInt + (words[10]).toInt)

theorem temperatureB5_bounds : -67239933 ≤ temperatureB5 words ut ∧ temperatureB5 words ut ≤ 67239932 := by
  have hx := tempX1_bounds words ut
  have hq := tempQuotient_natAbs_le words ((tempX1 words ut).toInt + (words[10]).toInt)
  rw [temperatureB5]
  omega

end

theorem tempT10_toInt {b5 : Word64} (hl : -67239933 ≤ b5.toInt) (hu : b5.toInt ≤ 67239932) :
    (tempT10 b5).toInt = (b5.toInt + 8) / 16 :=
  dpShr_exact (dpAdd_exact (y := 8) rfl rfl ⟨by omega, by omega⟩) 4

theorem compT_of_tempX2 {words : CalWords} {ut : Word16} {x2 : Word64}
    (h : tempX2 words (tempX1 words ut) = some x2) :
    compT words ut = some (tempT10 (dpAdd (tempX1 words ut) x2), dpAdd (tempX1 words ut) x2) := by
  unfold compT
  dsimp only
  rw [h]

/-- Where the divisor is not zero CompT answers, with B5 the integer of R173 and T10 taken from it. -/
theorem compT_of_ne_zero {words : CalWords} {ut : Word16}
    (h : (tempX1 words ut).toInt + (words[10]).toInt ≠ 0) :
    ∃ b5, compT words ut = some (tempT10 b5, b5) ∧ b5.toInt = temperatureB5 words ut := by
  obtain ⟨x2, h2, hv⟩ := tempX2_of_ne_zero words ut h
  refine ⟨dpAdd (tempX1 words ut) x2, compT_of_tempX2 h2, ?_⟩
  have hb := temperatureB5_bounds words ut
  rw [temperatureB5] at hb ⊢
  exact dpAdd_exact rfl hv ⟨by omega, by omega⟩

/-- Settles O42: the divisor of CompT is the integer X1 + MD; where it is not zero, B5 is `temperatureB5`. -/
theorem temperatureFormulaIsExact : Obligations.TemperatureFormulaIsExact := by
  intro words ut ac5 ac6 mc md x1 b
  have hx1 : (tempX1 words ut).toInt = x1 := tempX1_toInt words ut
  have hb : temperatureB5 words ut = b := by rw [temperatureB5, hx1]
  constructor
  · intro h
    rw [compT_eq_none_iff]
    apply BitVec.eq_of_toInt_eq
    rw [tempDivisor_toInt, hx1]
    exact h
  · intro h
    obtain ⟨b5, hc, h5⟩ := compT_of_ne_zero (words := words) (ut := ut) (hx1 ▸ h)
    obtain ⟨hl, hu⟩ := temperatureB5_bounds words ut
    have ht := tempT10_toInt (h5 ▸ hl) (h5 ▸ hu)
    rw [h5] at ht
    rw [hb] at h5 ht hl hu
    exact ⟨tempT10 b5, b5, hc, h5, ht, hl, hu, by omega, by omega⟩

end Sys2Proof.Machine
end

section
/-! What the lines of CompP are built from: the size of an exact product, a calibration word's product shifted right,
and the exact quotient (00_scope.md R11 to R14). -/

namespace Sys2Proof.Machine

open Sys2Proof

theorem natAbs_mul_le {x y : Int} {m n : Nat} (hx : x.natAbs ≤ m) (hy : y.natAbs ≤ n) : (x * y).natAbs ≤ m * n := by
  rw [Int.natAbs_mul]
  exact Nat.mul_le_mul hx hy

theorem word_toInt_natAbs_le (w : Word16) : w.toInt.natAbs ≤ 32768 := by
  have hl := w.le_toInt
  have hu := w.toInt_lt
  omega

theorem word_mul_natAbs_le (w : Word16) {x : Int} {m : Nat} (hx : x.natAbs ≤ m) : (w.toInt * x).natAbs ≤ 32768 * m :=
  natAbs_mul_le (word_toInt_natAbs_le w) hx

/-- The shape of R192, R193, R196 and R197: a signed calibration word times B6 or its square, shifted right. The bound
is that of the square, the larger of the two (`presSquare_natAbs_le`). -/
theorem word_mul_shr_exact (w : Word16) {a : Word64} (ha : a.toInt.natAbs ≤ 1104000000000) (n : Nat) :
    (dpShr (dpMul (sext16 w) a) n).toInt = w.toInt * a.toInt / 2 ^ n := by
  have hmul := word_mul_natAbs_le w ha
  exact dpShr_exact (dpMul_exact (sext16_toInt w) rfl ⟨by omega, by omega⟩) n

theorem dpDiv_exact {a b : Word64} {x y : Int} (ha : a.toInt = x) (hb : b.toInt = y) (hy : y ≠ 0)
    (h : Fits64 (Int.tdiv x y)) : ∃ q, dpDiv a b = some q ∧ q.toInt = Int.tdiv x y := by
  subst ha hb
  exact ⟨_, dpDiv_of_ne_zero fun h0 => hy (h0 ▸ rfl), wrap64_toInt h⟩

end Sys2Proof.Machine
end

section
/-! CompP up to the branch: the exact value and the size of each of its lines, for a B6 of the size that CompT's B5
leaves (43_pressure_compensation.md R191 to R201). -/

namespace Sys2Proof.Machine

open Sys2Proof

/-! B6 and its square (R191, R192). -/

section
variable {b5 : Word64} (hl : -67239933 ≤ b5.toInt) (hu : b5.toInt ≤ 67239932)
include hl hu

theorem presB6_toInt : (presB6 b5).toInt = b5.toInt - 4000 :=
  dpSub_exact (y := 4000) rfl rfl ⟨by omega, by omega⟩

theorem presB6_natAbs_le : (presB6 b5).toInt.natAbs ≤ 67243933 := by
  rw [presB6_toInt hl hu]
  omega

end

/-- The X3 of B3 as an integer (R194). -/
def pressureB3X3 (words : CalWords) (b6 : Word64) : Int :=
  (words[7]).toInt * (presSquare b6).toInt / (2048 : Int) + (words[1]).toInt * b6.toInt / 2048

/-- The X3 of B4 as an integer (R198). -/
def pressureB4X3 (words : CalWords) (b6 : Word64) : Int :=
  ((words[2]).toInt * b6.toInt / (8192 : Int) + (words[6]).toInt * (presSquare b6).toInt / 65536 + 2) / 4

section
variable (words : CalWords) {b6 : Word64} (hb6 : b6.toInt.natAbs ≤ 67243933)
include hb6

theorem presSquare_toInt : (presSquare b6).toInt = b6.toInt * b6.toInt / 4096 := by
  have hmul := natAbs_mul_le hb6 hb6
  exact dpShr_exact (dpMul_exact rfl rfl ⟨by omega, by omega⟩) 12

theorem presSquare_natAbs_le : (presSquare b6).toInt.natAbs ≤ 1104000000000 := by
  have hmul := natAbs_mul_le hb6 hb6
  rw [presSquare_toInt hb6]
  omega

/-! B3 (R192 to R195). -/

theorem pressureB3X3_natAbs_le : (pressureB3X3 words b6).natAbs ≤ 17700000000000 := by
  have h1 := word_mul_natAbs_le words[7] (presSquare_natAbs_le hb6)
  have h2 := word_mul_natAbs_le words[1] hb6
  rw [pressureB3X3]
  omega

/-- The sum that R195 shifts left by OSS. -/
theorem pressureB3_shifted_natAbs_le (oss : BitVec 2) :
    (((words[0]).toInt * 4 + pressureB3X3 words b6) * 2 ^ oss.toNat).natAbs ≤ 17700000131072 * 8 := by
  have h0 := word_toInt_natAbs_le words[0]
  have h3 := pressureB3X3_natAbs_le words hb6
  have hpow : ((2 : Int) ^ oss.toNat).natAbs ≤ 2 ^ 3 := by
    rw [Int.natAbs_pow]
    exact Nat.pow_le_pow_right (by decide) (Nat.le_of_lt_succ oss.isLt)
  exact natAbs_mul_le (by omega) hpow

theorem presB3_x3_toInt :
    (dpAdd (dpShr (dpMul (calB2 words) (presSquare b6)) 11) (dpShr (dpMul (calAC2 words) b6) 11)).toInt =
      pressureB3X3 words b6 := by
  have hx3 := pressureB3X3_natAbs_le words hb6
  rw [pressureB3X3] at hx3 ⊢
  exact dpAdd_exact (word_mul_shr_exact words[7] (presSquare_natAbs_le hb6) 11)
    (word_mul_shr_exact words[1] (hb6.trans (by decide)) 11) ⟨by omega, by omega⟩

theorem presB3_toInt (oss : BitVec 2) :
    (presB3 words b6 oss).toInt =
      (((words[0]).toInt * 4 + pressureB3X3 words b6) * 2 ^ oss.toNat + 2) / 4 := by
  have h0 := word_toInt_natAbs_le words[0]
  have h3 := pressureB3X3_natAbs_le words hb6
  have hshl := pressureB3_shifted_natAbs_le words hb6 oss
  have hac1 := dpMul_exact (b := 4) (y := 4) (sext16_toInt words[0]) rfl ⟨by omega, by omega⟩
  have hsum := dpAdd_exact hac1 (presB3_x3_toInt words hb6) ⟨by omega, by omega⟩
  have hshifted := dpShl_exact hsum oss.toNat ⟨by omega, by omega⟩
  exact dpShr_exact (dpAdd_exact (b := 2) (y := 2) hshifted rfl ⟨by omega, by omega⟩) 2

theorem presB3_natAbs_le (oss : BitVec 2) : (presB3 words b6 oss).toInt.natAbs ≤ 35500000000000 := by
  have hshl := pressureB3_shifted_natAbs_le words hb6 oss
  rw [presB3_toInt words hb6]
  omega

/-! B4 (R196 to R199). -/

theorem pressureB4X3_natAbs_le : (pressureB4X3 words b6).natAbs ≤ 139000000000 := by
  have h1 := word_mul_natAbs_le words[2] hb6
  have h2 := word_mul_natAbs_le words[6] (presSquare_natAbs_le hb6)
  rw [pressureB4X3]
  omega

theorem presB4_x3_toInt :
    (dpShr (dpAdd (dpAdd (dpShr (dpMul (calAC3 words) b6) 13) (dpShr (dpMul (calB1 words) (presSquare b6)) 16)) 2)
      2).toInt = pressureB4X3 words b6 := by
  have h1 := word_mul_natAbs_le words[2] hb6
  have h2 := word_mul_natAbs_le words[6] (presSquare_natAbs_le hb6)
  have hsum := dpAdd_exact (word_mul_shr_exact words[2] (hb6.trans (by decide)) 13)
    (word_mul_shr_exact words[6] (presSquare_natAbs_le hb6) 16) ⟨by omega, by omega⟩
  exact dpShr_exact (dpAdd_exact (b := 2) (y := 2) hsum rfl ⟨by omega, by omega⟩) 2

theorem presB4_toInt :
    (presB4 words b6).toInt = (words[3]).toNat * (pressureB4X3 words b6 + 32768) / 32768 := by
  have h3 := pressureB4X3_natAbs_le words hb6
  have hac4 : ((words[3]).toNat : Int).natAbs ≤ 65535 := Nat.le_of_lt_succ (words[3]).isLt
  have hmul := natAbs_mul_le hac4 (y := pressureB4X3 words b6 + 32768) (n := 139000032768) (by omega)
  have hfactor := dpAdd_exact (b := 32768) (y := 32768) (presB4_x3_toInt words hb6) rfl ⟨by omega, by omega⟩
  exact dpShr_exact (dpMul_exact (zext16_toInt words[3]) hfactor ⟨by omega, by omega⟩) 15

end

/-! B7 (R200) and the branch (R201). -/

section
variable {b3 : Word64} (hb3 : b3.toInt.natAbs ≤ 35500000000000) (up : Word24) (oss : BitVec 2)
include hb3

theorem pressureB7_natAbs_le :
    (((up.toNat : Int) - b3.toInt) * (50000 / 2 ^ oss.toNat)).natAbs ≤ 35500016777216 * 50000 := by
  have hup := up.isLt
  exact natAbs_mul_le (by omega) (Int.natAbs_ediv_le_natAbs 50000 _)

theorem presB7_toInt : (presB7 up b3 oss).toInt = ((up.toNat : Int) - b3.toInt) * (50000 / 2 ^ oss.toNat) := by
  have hup := up.isLt
  have hmul := pressureB7_natAbs_le hb3 up oss
  have hsub := dpSub_exact (zext24_toInt up) (Eq.refl b3.toInt) ⟨by omega, by omega⟩
  exact dpMul_exact hsub (dpShr_exact (x := 50000) rfl oss.toNat) ⟨by omega, by omega⟩

theorem presB7_natAbs_le : (presB7 up b3 oss).toInt.natAbs ≤ 1775000838860800000 := by
  rw [presB7_toInt hb3]
  exact pressureB7_natAbs_le hb3 up oss

end

/-- P before its correction: doubling B7, or the quotient by B4, stays within 64 bits on either branch (R201). -/
theorem presBranch_exact {b7 b4 : Word64} (h7 : b7.toInt.natAbs ≤ 1775000838860800000) (h4 : b4.toInt ≠ 0) :
    ∃ p, presBranch b7 b4 = some p ∧
      p.toInt = if b7.toInt < 2147483648 then Int.tdiv (b7.toInt * 2) b4.toInt else Int.tdiv b7.toInt b4.toInt * 2 := by
  have hlt : dpLt b7 0x80000000 = true ↔ b7.toInt < 2147483648 := dpLt_iff b7 0x80000000
  by_cases h : b7.toInt < 2147483648
  · have hq := Int.natAbs_tdiv_le_natAbs (b7.toInt * 2) b4.toInt
    have hshl : (dpShl b7 1).toInt = b7.toInt * 2 := dpShl_exact rfl 1 ⟨by omega, by omega⟩
    rw [presBranch, if_pos (hlt.2 h), if_pos h]
    exact dpDiv_exact hshl rfl h4 ⟨by omega, by omega⟩
  · have hq := Int.natAbs_tdiv_le_natAbs b7.toInt b4.toInt
    obtain ⟨q, hdiv, hval⟩ := dpDiv_exact (a := b7) (b := b4) rfl rfl h4 ⟨by omega, by omega⟩
    rw [presBranch, if_neg (hlt.not.2 h), if_neg h, hdiv]
    exact ⟨dpShl q 1, rfl, dpShl_exact hval 1 ⟨by omega, by omega⟩⟩

/-- Settles O43: B6, B3, B4 and B7 of CompP are the integers of R191 to R200, and `presBranch_exact` is
R201. The bound on UP is not needed: every 24-bit UP fits. -/
theorem pressureFormulaIsExact : Obligations.PressureFormulaIsExact := by
  intro words up b5 oss hl hu _ ac1 ac2 ac3 ac4 b1 b2 b6 square x3 b3 y3 b4 b7
  have hb6 : (presB6 b5).toInt = b6 := presB6_toInt hl hu
  have hsize := presB6_natAbs_le hl hu
  have hsquare : (presSquare (presB6 b5)).toInt = square := by rw [presSquare_toInt hsize, hb6]
  have hx3 : pressureB3X3 words (presB6 b5) = x3 := by rw [pressureB3X3, hsquare, hb6]
  have hb3 : (presB3 words (presB6 b5) oss).toInt = b3 := by rw [presB3_toInt words hsize, hx3]
  have hy3 : pressureB4X3 words (presB6 b5) = y3 := by rw [pressureB4X3, hsquare, hb6]
  have hb4 : (presB4 words (presB6 b5)).toInt = b4 := by rw [presB4_toInt words hsize, hy3]
  have hb3size := presB3_natAbs_le words hsize oss
  have hb7 : (presB7 up (presB3 words (presB6 b5) oss) oss).toInt = b7 := by rw [presB7_toInt hb3size, hb3]
  constructor
  · intro h0
    exact (compP_eq_none_iff words up b5 oss).2 (BitVec.eq_of_toInt_eq (hb4.trans h0))
  · intro h0
    obtain ⟨p, hp, hval⟩ := presBranch_exact (presB7_natAbs_le hb3size up oss) (hb4 ▸ h0)
    rw [hb7, hb4] at hval
    exact ⟨p, congrArg (Option.map presCorrect) hp, hval⟩

end Sys2Proof.Machine
end

section
/-! The final correction: the window in which its largest product is exact, and its exact value there
(43_pressure_compensation.md R202 to R206). -/

namespace Sys2Proof.Machine

open Sys2Proof

/-- The bound of R206 is that of the 64-bit range: 3038 times its square is the last product that fits. -/
theorem fits64_square_mul_iff (q : Int) : Fits64 (q * q * 3038) ↔ -55099921 ≤ q ∧ q ≤ 55099921 := by
  constructor
  · rintro ⟨-, h⟩
    have hlt : |q| < |55099922| := abs_lt_iff_mul_self_lt.2 (by omega)
    exact abs_le.1 (Int.le_of_lt_add_one hlt)
  · intro h
    have hle : q * q ≤ 55099921 * 55099921 := abs_le_iff_mul_self_le.1 (abs_le.2 h)
    have hnonneg := mul_self_nonneg q
    exact ⟨by omega, by omega⟩

section
variable {p : Word64} (hwindow : -55099921 ≤ p.toInt / 256 ∧ p.toInt / 256 ≤ 55099921)
include hwindow

/-- The product of R203 inside the window; the square of R202 fits because the product does. -/
theorem presProduct_toInt :
    (dpMul (dpMul (dpShr p 8) (dpShr p 8)) 3038).toInt = (p.toInt / 256) * (p.toInt / 256) * 3038 := by
  have hfits := (fits64_square_mul_iff (p.toInt / 256)).2 hwindow
  have hq : (dpShr p 8).toInt = p.toInt / 256 := dpShr_exact rfl 8
  have hsquare := dpMul_exact hq hq ⟨by omega, by omega⟩
  exact dpMul_exact hsquare (y := 3038) rfl hfits

theorem presCorrect_toInt :
    (presCorrect p).toInt =
      p.toInt + ((p.toInt / 256) * (p.toInt / 256) * 3038 / 65536 + -7357 * p.toInt / 65536 + 3791) / 16 := by
  obtain ⟨hlow, hhigh⟩ := (fits64_square_mul_iff (p.toInt / 256)).2 hwindow
  have hx1 := dpShr_exact (presProduct_toInt hwindow) 16
  have hx2 := dpShr_exact (dpMul_exact (a := -7357) (x := -7357) rfl (Eq.refl p.toInt) ⟨by omega, by omega⟩) 16
  have hsum := dpAdd_exact (b := 3791) (y := 3791) (dpAdd_exact hx1 hx2 ⟨by omega, by omega⟩) rfl
    ⟨by omega, by omega⟩
  exact dpAdd_exact rfl (dpShr_exact hsum 4) ⟨by omega, by omega⟩

end

/-- Settles O44: inside the window every product and sum of the correction fits. -/
theorem finalCorrectionIsExact : Obligations.FinalCorrectionIsExact :=
  fun _ hl hu => presCorrect_toInt ⟨hl, hu⟩

/-- Settles O45: an exact product is a 64-bit value, so it fits, and it fits only inside the window. -/
theorem exactnessWindow : Obligations.ExactnessWindow := fun p =>
  ⟨fun hexact => (fits64_square_mul_iff (p.toInt / 256)).1 (hexact ▸ toInt_fits _), presProduct_toInt⟩

end Sys2Proof.Machine
end

section
/-! The accessors of the published results at the ready port (44_result_access.md R220, R221). -/

namespace Sys2Proof.Machine

open Sys2Proof

/-- Before the first publication a getter sends the "unavailable" marker, whatever the register holds. -/
theorem answerResult_accept_unavailable {s : State} (hq : s.seq = .idle) (hv : s.resValid = false) (w : Byte)
    (v : Word64) :
    answerResult v (s.accept w) = { s with cmd := none, responses := s.responses ++ [okResponse] } := by
  rw [answerResult_unavailable ((s.accept_resValid w).trans hv)]
  exact State.emit_of_idle (s := s.accept w) hq okResponse

/-- After a publication a getter sends the value of its register. -/
theorem answerResult_accept_value {s : State} (hq : s.seq = .idle) (hv : s.resValid = true) (w : Byte) (v : Word64) :
    answerResult v (s.accept w) = { s with cmd := none, responses := s.responses ++ [valueResponse v] } := by
  rw [answerResult_value ((s.accept_resValid w).trans hv)]
  exact State.emit_of_idle (s := s.accept w) hq (valueResponse v)

/-- Settles O48: GET_T at the ready port answers by the value of RES_VALID. -/
theorem getTemperatureAnswers : Obligations.GetTemperatureAnswers := by
  refine ⟨rfl, fun s hq => ?_⟩
  rw [exec_getT_idle hq]
  refine ⟨fun hv => ⟨none, ?_⟩, fun v hv ht => ⟨none, ?_⟩⟩
  · exact congrArg _ (answerResult_accept_unavailable hq hv _ _)
  · rw [State.readResT10_of_some ht]
    exact congrArg _ (answerResult_accept_value hq hv _ v)

/-- Settles O49: GET_P at the ready port answers by the value of RES_VALID. -/
theorem getPressureAnswers : Obligations.GetPressureAnswers := by
  refine ⟨rfl, fun s hq => ?_⟩
  rw [exec_getP_idle hq]
  refine ⟨fun hv => ⟨none, ?_⟩, fun v hv hp => ⟨none, ?_⟩⟩
  · exact congrArg _ (answerResult_accept_unavailable hq hv _ _)
  · rw [State.readResP_of_some hp]
    exact congrArg _ (answerResult_accept_value hq hv _ v)

end Sys2Proof.Machine
end

section
/-! Errors: which step raises which and on what cause, what an abort changes, and that no step stops
(60_exceptions.md R230 to R237). -/

namespace Sys2Proof.Machine

open Sys2Proof Sys2Proof.Safety

/-! The response of a step. -/

/-- The only response added by an `emit` is the one it sends (R93). -/
theorem eq_of_emit_responses {s u : State} {r r' : Response}
    (hr : (u.emit r').responses = s.responses ++ [r]) (hu : u.responses = s.responses) : r' = r := by
  simpa [hu] using hr

/-- What meets the coming step when it raises a status (R230): an illegal word, a MEASURE without a calibration, a
failed transaction, a block that does not load, or a function of the datapath without a value. -/
inductive Raises (s : State) : Status → Prop where
  | illegalWord (w : Byte) (e : DecodeError) (hw : TakesWord s w) (hd : decode .host w = .error e) :
      Raises s .illegalCommand
  | uncalibrated (hw : TakesWord s 0x20) (hv : s.calValid = false) : Raises s .notCalibrated
  | failedRead (n : Nat) (hq : (s.seq = .l1 ∧ n = 22) ∨ (s.seq = .m3 ∧ n = 2) ∨ (s.seq = .m7 ∧ n = 3))
      (ha : readOk n (nextAnswer s) = false) : Raises s .busError
  | failedWrite (hq : s.seq = .m1 ∨ s.seq = .m5) (ha : (nextAnswer s).busError = true) : Raises s .busError
  | invalidBlock (k : Nat) (hq : s.seq = .l2) (hl : load s.params.calSentinelCheck s.readBUF = .error k) :
      Raises s .calibrationInvalid
  | temperature (hq : s.seq = .m4) (hr : compT s.readCAL s.readUT = none) : Raises s .arithFault
  | pressure (hq : s.seq = .m8) (hr : compP s.readCAL s.readUP s.readB5 s.oss = none) : Raises s .arithFault

/-- `t` is `s` after the abort that answers `r` (R234): beside the end of the command only BUF has changed, and what
stands outside the CORE. -/
def AbortsWith (r : Response) (s t : State) : Prop :=
  ∃ hostPort buf trace busIn busDraws, t = State.emit r { s with
    hostPort := hostPort, buf := buf, trace := trace, busIn := busIn, busDraws := busDraws }

/-- A failed transaction, whatever BUF then holds, is followed by an abort (R232). -/
theorem abortsWith_afterTransaction (r : Response) (e : Event) (buf : Vector (Option Byte) 22) (s : State) :
    AbortsWith r s (State.emit r { afterTransaction e s with buf := buf }) := by
  rw [afterTransaction_eq]
  exact ⟨_, _, _, _, _, rfl⟩

/-- A step that answers one response answers OK, or raises an error and aborts with the response of its own step. -/
theorem StepCase.answer_cases {s t : State} {r : Response} (h : StepCase s t)
    (hr : t.responses = s.responses ++ [r]) :
    (r.status = .ok ∧ (s.seq = .idle ∨ s.seq = .m9 ∨ s.seq = .l2)) ∨
    ∃ e, Raises s e ∧ r = errorResponse e s.seq ∧ AbortsWith r s t := by
  cases h with
  | construct => simp [reconstruct, State.construct] at hr
  | wait | acceptBegin | acceptMeasure | readBlock | readTemperature | readPressure | writeCommand | delay | temperature
  | pressure => simp [afterTransaction] at hr
  | config _ _ hq | unavailable _ _ hq | answer _ _ _ hq =>
    obtain rfl := eq_of_emit_responses hr rfl
    exact .inl ⟨rfl, .inl hq⟩
  | publish hq =>
    obtain rfl := eq_of_emit_responses hr rfl
    exact .inl ⟨rfl, .inr (.inl hq)⟩
  | store _ hq =>
    obtain rfl := eq_of_emit_responses hr rfl
    exact .inl ⟨rfl, .inr (.inr hq)⟩
  | illegal w rest e hq hp hd =>
    obtain rfl := eq_of_emit_responses hr rfl
    exact .inr ⟨_, .illegalWord w e ⟨hq, rest, hp⟩ hd, by rw [hq], rest, _, _, _, _, rfl⟩
  | notCalibrated rest hq hp hv =>
    obtain rfl := eq_of_emit_responses hr rfl
    exact .inr ⟨_, .uncalibrated ⟨hq, rest, hp⟩ hv, by rw [hq], rest, _, _, _, _, rfl⟩
  | readFails addr n hq ha =>
    obtain rfl := eq_of_emit_responses hr s.takeAnswer_responses
    have hstep : (s.seq = .l1 ∧ n = 22) ∨ (s.seq = .m3 ∧ n = 2) ∨ (s.seq = .m7 ∧ n = 3) :=
      hq.imp (.imp_right And.right) (.imp (.imp_right And.right) (.imp_right And.right))
    exact .inr ⟨_, .failedRead n hstep ha, rfl, abortsWith_afterTransaction ..⟩
  | writeFails v hq ha =>
    obtain rfl := eq_of_emit_responses hr s.takeAnswer_responses
    exact .inr ⟨_, .failedWrite (hq.imp And.left And.left) ha, rfl, abortsWith_afterTransaction _ _ _ s⟩
  | invalidBlock k hq hl =>
    obtain rfl := eq_of_emit_responses hr rfl
    exact .inr ⟨_, .invalidBlock k hq hl, by rw [hq], _, _, _, _, _, rfl⟩
  | temperatureFault hq hf =>
    obtain rfl := eq_of_emit_responses hr rfl
    exact .inr ⟨_, .temperature hq hf, by rw [hq], _, _, _, _, _, rfl⟩
  | pressureFault hq hf =>
    obtain rfl := eq_of_emit_responses hr rfl
    exact .inr ⟨_, .pressure hq hf, by rw [hq], _, _, _, _, _, rfl⟩

/-! The obligations. -/

/-- Settles O50: an answer other than OK is an abort, whose next state is that of `AbortsWith`. -/
theorem abortIsPrecise : Obligations.AbortIsPrecise := by
  intro s t r h hr hne
  obtain ⟨hok, -⟩ | ⟨e, -, rfl, _, _, _, _, _, rfl⟩ := (step_cases h).answer_cases hr
  · exact absurd hok hne
  · exact ⟨rfl, rfl, rfl, rfl, rfl, rfl, rfl, rfl, rfl, rfl, rfl, rfl, rfl, rfl, rfl, rfl, rfl⟩

/-- Settles O51: each case of `Raises` is its line of R230; a failed read is an error or a wrong count, a failed load a
sentinel word, and a result without a value a zero divisor. -/
theorem errorsAreRaisedWhereListed : Obligations.ErrorsAreRaisedWhereListed := by
  intro s t r h hr
  obtain ⟨hok, hq⟩ | ⟨e, hcause, rfl, -⟩ := (step_cases h).answer_cases hr
  · rw [hok]
    exact hq
  · cases hcause with
    | illegalWord w e hw hd => exact ⟨w, e, hw, hd⟩
    | uncalibrated hw hv => exact ⟨hw, hv⟩
    | failedWrite hq ha => exact .inl ⟨hq, ha⟩
    | failedRead n hq ha =>
      rw [readOk_eq_false_iff] at ha
      obtain ⟨hq, rfl⟩ | ⟨hq, rfl⟩ | ⟨hq, rfl⟩ := hq
      · exact .inr (.inl ⟨hq, ha⟩)
      · exact .inr (.inr (.inl ⟨hq, ha⟩))
      · exact .inr (.inr (.inr ⟨hq, ha⟩))
    | invalidBlock k hq hl =>
      obtain ⟨hcheck, hsentinel⟩ := load_error hl
      exact ⟨hq, hcheck, k, hcheck ▸ hl, hsentinel⟩
    | temperature hq hf => exact .inl ⟨hq, hf, (compT_eq_none_iff ..).1 hf⟩
    | pressure hq hf => exact .inr ⟨hq, hf, (compP_eq_none_iff ..).1 hf⟩

/-- Settles O57: a step runs an instruction, which completes, or has its next state from the fetch. -/
theorem stepNeverStops : Obligations.StepNeverStops := by
  intro s
  rw [step]
  cases fetch s with
  | run i s' => exact everyInstructionCompletes s' i
  | done s' => exact ⟨s', rfl⟩

end Sys2Proof.Machine
end

section
/-! How SEQ comes to the steps that read or use a conversion result, and the second reset (70_reset_and_hazards.md R262,
R264, R265). -/

namespace Sys2Proof.Machine

open Sys2Proof Sys2Proof.Safety

/-- From IDLE a step stays there, or accepts a command and goes to its first step (R112, R131). -/
theorem StepCase.seq_of_idle {s t : State} (h : StepCase s t) (hq : s.seq = .idle) :
    t.seq = .idle ∨ t.seq = .l1 ∨ t.seq = .m1 := by
  cases h with
  | wait => exact .inl hq
  | acceptBegin => exact .inr (.inl rfl)
  | acceptMeasure => exact .inr (.inr rfl)
  | readBlock hs | readTemperature hs | readPressure hs | writeCommand _ _ hs | delay _ _ hs | temperature _ _ hs
  | pressure _ hs => simp [hq] at hs
  | construct | illegal | notCalibrated | config | unavailable | answer | readFails | writeFails | store | invalidBlock
  | temperatureFault | pressureFault | publish => exact .inl rfl

/-- No step goes on to IDLE or to the first step of a command (R36). -/
theorem successor_ne_first (q : Seq) : successor q ≠ some .idle ∧ successor q ≠ some .l1 ∧ successor q ≠ some .m1 := by
  cases q <;> decide

/-- No two steps go on to the same one (R36). -/
theorem successor_injective (q q' : Seq) : successor q = successor q' → successor q' ≠ none → q = q' := by
  cases q <;> cases q' <;> decide

/-- A step later than the first of its command is reached only from the one before it (R36, R130). -/
theorem StepCase.seq_eq_of_successor {s t : State} {q q' : Seq} (h : StepCase s t) (ht : t.seq = q')
    (hq : successor q = some q') : s.seq = q := by
  obtain ⟨hidle, hl1, hm1⟩ := successor_ne_first q
  rw [← ht] at hq
  obtain hs | ht | hs := h.seq_cases
  · obtain ht | ht | ht := h.seq_of_idle hs
    · exact absurd (ht ▸ hq) hidle
    · exact absurd (ht ▸ hq) hl1
    · exact absurd (ht ▸ hq) hm1
  · exact absurd (ht ▸ hq) hidle
  · exact successor_injective _ _ (hs.trans hq.symm) (by simp [hq])

/-- What a step of the cycle answers is the state of `cycleStep`. -/
theorem eq_cycleStep_of_step {s t : State} {q : Seq} (h : step s = .next t) (hq : s.seq = q)
    (hm : q.measuring = true) : t = cycleStep q s :=
  Host.Outcome.next.inj (h.symm.trans (step_of_measuring hq hm))

/-- M7 goes on to M8 only if its read has succeeded (R147). -/
theorem readOk_of_stepM7_seq {s : State} (h : (stepM7 s).seq = .m8) : readOk 3 (nextAnswer s) = true := by
  cases ha : readOk 3 (nextAnswer s) with
  | true => rfl
  | false =>
    rw [stepM7_fail ha] at h
    cases h

/-- Settles O31: each of the five is reached only from the step before it, and M2, M6 and M7 are then the delay or the
read that they make. -/
theorem settleComesBeforeRead : Obligations.SettleComesBeforeRead := by
  intro s t h
  refine ⟨fun ht => ?_, fun ht => ?_, fun ht => ?_, fun ht => ?_, fun ht => ?_⟩
  · have hq : s.seq = .m2 := (step_cases h).seq_eq_of_successor ht rfl
    obtain rfl := eq_cycleStep_of_step h hq rfl
    exact ⟨hq, rfl⟩
  · have hq : s.seq = .m6 := (step_cases h).seq_eq_of_successor ht rfl
    obtain rfl := eq_cycleStep_of_step h hq rfl
    exact ⟨hq, rfl⟩
  · have hq : s.seq = .m7 := (step_cases h).seq_eq_of_successor ht rfl
    obtain rfl := eq_cycleStep_of_step h hq rfl
    exact ⟨hq, readOk_of_stepM7_seq ht⟩
  · exact (step_cases h).seq_eq_of_successor ht rfl
  · exact (step_cases h).seq_eq_of_successor ht rfl

/-- The ready port takes a construction without an instruction (R260). -/
theorem fetch_construct {s : State} {p : Params} {rest : List HostMove} (hq : s.seq = .idle)
    (hp : s.hostPort = .construct p :: rest) : fetch s = .done (reconstruct p { s with hostPort := rest }) := by
  simp only [fetch, hq, fetchFromHost, hp]

/-- Settles O13: the step takes the construction, and `reconstruct` keeps only the port and the transport's answers. -/
theorem secondResetDiscardsState : Obligations.SecondResetDiscardsState := by
  intro s p rest hq hp
  rw [step, fetch_construct hq hp, reconstruct]

end Sys2Proof.Machine
end
